-- ==== Sys2Proof/Word.lean ====
section
/-! DEFINITION. The two word types of the hardware: the bus byte and the CPU address (spec 00_scope R7, R10). -/

namespace Sys2Proof

/-- A data byte: "data word 8 bits" (00_scope R7). -/
abbrev Byte := BitVec 8

/-- A CPU address: "CPU address 16 bits" (00_scope R7). -/
abbrev Word := BitVec 16

end Sys2Proof
end

