-- ==== Sys2Proof/Syntax.lean ====
section
/-! DEFINITION. The instructions: one constructor for each of the 151 rows of spec/opcode_table.json (30_encoding R226),
with the operand bytes of its format (30_encoding R200) as the table names them: imm8, a8, p8, off8, lo8, hi8, and the
padding byte of BRK (44_control R382). -/

namespace Sys2Proof

/-- The addressing modes of 30_encoding R200, under that rule's names. -/
inductive AddrMode where
  | imp | acc | imm | zp | zpx | zpy | rel | indx | indy | abs | absx | absy | ind
  deriving DecidableEq, Repr

/-- The documented NMOS 6502 instructions, one constructor per opcode. -/
inductive Instr where
  -- Loads (40_load_store_transfer)
  /-- LDA, immediate: opcode 0xA9 (R300). -/
  | ldaImm (imm8 : Byte)
  /-- LDA, zero page: opcode 0xA5 (R300). -/
  | ldaZp (a8 : Byte)
  /-- LDA, zero page,X: opcode 0xB5 (R300). -/
  | ldaZpX (a8 : Byte)
  /-- LDA, absolute: opcode 0xAD (R300). -/
  | ldaAbs (lo8 hi8 : Byte)
  /-- LDA, absolute,X: opcode 0xBD (R300). -/
  | ldaAbsX (lo8 hi8 : Byte)
  /-- LDA, absolute,Y: opcode 0xB9 (R300). -/
  | ldaAbsY (lo8 hi8 : Byte)
  /-- LDA, (zp,X): opcode 0xA1 (R300). -/
  | ldaIndX (p8 : Byte)
  /-- LDA, (zp),Y: opcode 0xB1 (R300). -/
  | ldaIndY (p8 : Byte)
  /-- LDX, immediate: opcode 0xA2 (R301). -/
  | ldxImm (imm8 : Byte)
  /-- LDX, zero page: opcode 0xA6 (R301). -/
  | ldxZp (a8 : Byte)
  /-- LDX, zero page,Y: opcode 0xB6 (R301). -/
  | ldxZpY (a8 : Byte)
  /-- LDX, absolute: opcode 0xAE (R301). -/
  | ldxAbs (lo8 hi8 : Byte)
  /-- LDX, absolute,Y: opcode 0xBE (R301). -/
  | ldxAbsY (lo8 hi8 : Byte)
  /-- LDY, immediate: opcode 0xA0 (R302). -/
  | ldyImm (imm8 : Byte)
  /-- LDY, zero page: opcode 0xA4 (R302). -/
  | ldyZp (a8 : Byte)
  /-- LDY, zero page,X: opcode 0xB4 (R302). -/
  | ldyZpX (a8 : Byte)
  /-- LDY, absolute: opcode 0xAC (R302). -/
  | ldyAbs (lo8 hi8 : Byte)
  /-- LDY, absolute,X: opcode 0xBC (R302). -/
  | ldyAbsX (lo8 hi8 : Byte)
  -- Stores (40_load_store_transfer)
  /-- STA, zero page: opcode 0x85 (R303). -/
  | staZp (a8 : Byte)
  /-- STA, zero page,X: opcode 0x95 (R303). -/
  | staZpX (a8 : Byte)
  /-- STA, absolute: opcode 0x8D (R303). -/
  | staAbs (lo8 hi8 : Byte)
  /-- STA, absolute,X: opcode 0x9D (R303). -/
  | staAbsX (lo8 hi8 : Byte)
  /-- STA, absolute,Y: opcode 0x99 (R303). -/
  | staAbsY (lo8 hi8 : Byte)
  /-- STA, (zp,X): opcode 0x81 (R303). -/
  | staIndX (p8 : Byte)
  /-- STA, (zp),Y: opcode 0x91 (R303). -/
  | staIndY (p8 : Byte)
  /-- STX, zero page: opcode 0x86 (R304). -/
  | stxZp (a8 : Byte)
  /-- STX, zero page,Y: opcode 0x96 (R304). -/
  | stxZpY (a8 : Byte)
  /-- STX, absolute: opcode 0x8E (R304). -/
  | stxAbs (lo8 hi8 : Byte)
  /-- STY, zero page: opcode 0x84 (R305). -/
  | styZp (a8 : Byte)
  /-- STY, zero page,X: opcode 0x94 (R305). -/
  | styZpX (a8 : Byte)
  /-- STY, absolute: opcode 0x8C (R305). -/
  | styAbs (lo8 hi8 : Byte)
  -- Register transfers (40_load_store_transfer)
  /-- TAX, implied: opcode 0xAA (R306). -/
  | tax
  /-- TAY, implied: opcode 0xA8 (R307). -/
  | tay
  /-- TXA, implied: opcode 0x8A (R308). -/
  | txa
  /-- TYA, implied: opcode 0x98 (R309). -/
  | tya
  /-- TSX, implied: opcode 0xBA (R310). -/
  | tsx
  /-- TXS, implied: opcode 0x9A (R311). -/
  | txs
  -- Stack (41_stack)
  /-- PHA, implied: opcode 0x48 (R320). -/
  | pha
  /-- PHP, implied: opcode 0x08 (R321). -/
  | php
  /-- PLA, implied: opcode 0x68 (R322). -/
  | pla
  /-- PLP, implied: opcode 0x28 (R323). -/
  | plp
  -- Arithmetic, logic, compare, bit test (42_arith_logic)
  /-- ADC, immediate: opcode 0x69 (R330). -/
  | adcImm (imm8 : Byte)
  /-- ADC, zero page: opcode 0x65 (R330). -/
  | adcZp (a8 : Byte)
  /-- ADC, zero page,X: opcode 0x75 (R330). -/
  | adcZpX (a8 : Byte)
  /-- ADC, absolute: opcode 0x6D (R330). -/
  | adcAbs (lo8 hi8 : Byte)
  /-- ADC, absolute,X: opcode 0x7D (R330). -/
  | adcAbsX (lo8 hi8 : Byte)
  /-- ADC, absolute,Y: opcode 0x79 (R330). -/
  | adcAbsY (lo8 hi8 : Byte)
  /-- ADC, (zp,X): opcode 0x61 (R330). -/
  | adcIndX (p8 : Byte)
  /-- ADC, (zp),Y: opcode 0x71 (R330). -/
  | adcIndY (p8 : Byte)
  /-- SBC, immediate: opcode 0xE9 (R331). -/
  | sbcImm (imm8 : Byte)
  /-- SBC, zero page: opcode 0xE5 (R331). -/
  | sbcZp (a8 : Byte)
  /-- SBC, zero page,X: opcode 0xF5 (R331). -/
  | sbcZpX (a8 : Byte)
  /-- SBC, absolute: opcode 0xED (R331). -/
  | sbcAbs (lo8 hi8 : Byte)
  /-- SBC, absolute,X: opcode 0xFD (R331). -/
  | sbcAbsX (lo8 hi8 : Byte)
  /-- SBC, absolute,Y: opcode 0xF9 (R331). -/
  | sbcAbsY (lo8 hi8 : Byte)
  /-- SBC, (zp,X): opcode 0xE1 (R331). -/
  | sbcIndX (p8 : Byte)
  /-- SBC, (zp),Y: opcode 0xF1 (R331). -/
  | sbcIndY (p8 : Byte)
  /-- AND, immediate: opcode 0x29 (R332). -/
  | andImm (imm8 : Byte)
  /-- AND, zero page: opcode 0x25 (R332). -/
  | andZp (a8 : Byte)
  /-- AND, zero page,X: opcode 0x35 (R332). -/
  | andZpX (a8 : Byte)
  /-- AND, absolute: opcode 0x2D (R332). -/
  | andAbs (lo8 hi8 : Byte)
  /-- AND, absolute,X: opcode 0x3D (R332). -/
  | andAbsX (lo8 hi8 : Byte)
  /-- AND, absolute,Y: opcode 0x39 (R332). -/
  | andAbsY (lo8 hi8 : Byte)
  /-- AND, (zp,X): opcode 0x21 (R332). -/
  | andIndX (p8 : Byte)
  /-- AND, (zp),Y: opcode 0x31 (R332). -/
  | andIndY (p8 : Byte)
  /-- ORA, immediate: opcode 0x09 (R333). -/
  | oraImm (imm8 : Byte)
  /-- ORA, zero page: opcode 0x05 (R333). -/
  | oraZp (a8 : Byte)
  /-- ORA, zero page,X: opcode 0x15 (R333). -/
  | oraZpX (a8 : Byte)
  /-- ORA, absolute: opcode 0x0D (R333). -/
  | oraAbs (lo8 hi8 : Byte)
  /-- ORA, absolute,X: opcode 0x1D (R333). -/
  | oraAbsX (lo8 hi8 : Byte)
  /-- ORA, absolute,Y: opcode 0x19 (R333). -/
  | oraAbsY (lo8 hi8 : Byte)
  /-- ORA, (zp,X): opcode 0x01 (R333). -/
  | oraIndX (p8 : Byte)
  /-- ORA, (zp),Y: opcode 0x11 (R333). -/
  | oraIndY (p8 : Byte)
  /-- EOR, immediate: opcode 0x49 (R334). -/
  | eorImm (imm8 : Byte)
  /-- EOR, zero page: opcode 0x45 (R334). -/
  | eorZp (a8 : Byte)
  /-- EOR, zero page,X: opcode 0x55 (R334). -/
  | eorZpX (a8 : Byte)
  /-- EOR, absolute: opcode 0x4D (R334). -/
  | eorAbs (lo8 hi8 : Byte)
  /-- EOR, absolute,X: opcode 0x5D (R334). -/
  | eorAbsX (lo8 hi8 : Byte)
  /-- EOR, absolute,Y: opcode 0x59 (R334). -/
  | eorAbsY (lo8 hi8 : Byte)
  /-- EOR, (zp,X): opcode 0x41 (R334). -/
  | eorIndX (p8 : Byte)
  /-- EOR, (zp),Y: opcode 0x51 (R334). -/
  | eorIndY (p8 : Byte)
  /-- BIT, zero page: opcode 0x24 (R335). -/
  | bitZp (a8 : Byte)
  /-- BIT, absolute: opcode 0x2C (R335). -/
  | bitAbs (lo8 hi8 : Byte)
  /-- CMP, immediate: opcode 0xC9 (R336). -/
  | cmpImm (imm8 : Byte)
  /-- CMP, zero page: opcode 0xC5 (R336). -/
  | cmpZp (a8 : Byte)
  /-- CMP, zero page,X: opcode 0xD5 (R336). -/
  | cmpZpX (a8 : Byte)
  /-- CMP, absolute: opcode 0xCD (R336). -/
  | cmpAbs (lo8 hi8 : Byte)
  /-- CMP, absolute,X: opcode 0xDD (R336). -/
  | cmpAbsX (lo8 hi8 : Byte)
  /-- CMP, absolute,Y: opcode 0xD9 (R336). -/
  | cmpAbsY (lo8 hi8 : Byte)
  /-- CMP, (zp,X): opcode 0xC1 (R336). -/
  | cmpIndX (p8 : Byte)
  /-- CMP, (zp),Y: opcode 0xD1 (R336). -/
  | cmpIndY (p8 : Byte)
  /-- CPX, immediate: opcode 0xE0 (R337). -/
  | cpxImm (imm8 : Byte)
  /-- CPX, zero page: opcode 0xE4 (R337). -/
  | cpxZp (a8 : Byte)
  /-- CPX, absolute: opcode 0xEC (R337). -/
  | cpxAbs (lo8 hi8 : Byte)
  /-- CPY, immediate: opcode 0xC0 (R338). -/
  | cpyImm (imm8 : Byte)
  /-- CPY, zero page: opcode 0xC4 (R338). -/
  | cpyZp (a8 : Byte)
  /-- CPY, absolute: opcode 0xCC (R338). -/
  | cpyAbs (lo8 hi8 : Byte)
  -- Increment, decrement (43_incdec_shift)
  /-- INC, zero page: opcode 0xE6 (R350). -/
  | incZp (a8 : Byte)
  /-- INC, zero page,X: opcode 0xF6 (R350). -/
  | incZpX (a8 : Byte)
  /-- INC, absolute: opcode 0xEE (R350). -/
  | incAbs (lo8 hi8 : Byte)
  /-- INC, absolute,X: opcode 0xFE (R350). -/
  | incAbsX (lo8 hi8 : Byte)
  /-- DEC, zero page: opcode 0xC6 (R351). -/
  | decZp (a8 : Byte)
  /-- DEC, zero page,X: opcode 0xD6 (R351). -/
  | decZpX (a8 : Byte)
  /-- DEC, absolute: opcode 0xCE (R351). -/
  | decAbs (lo8 hi8 : Byte)
  /-- DEC, absolute,X: opcode 0xDE (R351). -/
  | decAbsX (lo8 hi8 : Byte)
  /-- INX, implied: opcode 0xE8 (R352). -/
  | inx
  /-- INY, implied: opcode 0xC8 (R353). -/
  | iny
  /-- DEX, implied: opcode 0xCA (R354). -/
  | dex
  /-- DEY, implied: opcode 0x88 (R355). -/
  | dey
  -- Shift, rotate (43_incdec_shift)
  /-- ASL, accumulator: opcode 0x0A (R356). -/
  | aslAcc
  /-- ASL, zero page: opcode 0x06 (R356). -/
  | aslZp (a8 : Byte)
  /-- ASL, zero page,X: opcode 0x16 (R356). -/
  | aslZpX (a8 : Byte)
  /-- ASL, absolute: opcode 0x0E (R356). -/
  | aslAbs (lo8 hi8 : Byte)
  /-- ASL, absolute,X: opcode 0x1E (R356). -/
  | aslAbsX (lo8 hi8 : Byte)
  /-- LSR, accumulator: opcode 0x4A (R357). -/
  | lsrAcc
  /-- LSR, zero page: opcode 0x46 (R357). -/
  | lsrZp (a8 : Byte)
  /-- LSR, zero page,X: opcode 0x56 (R357). -/
  | lsrZpX (a8 : Byte)
  /-- LSR, absolute: opcode 0x4E (R357). -/
  | lsrAbs (lo8 hi8 : Byte)
  /-- LSR, absolute,X: opcode 0x5E (R357). -/
  | lsrAbsX (lo8 hi8 : Byte)
  /-- ROL, accumulator: opcode 0x2A (R358). -/
  | rolAcc
  /-- ROL, zero page: opcode 0x26 (R358). -/
  | rolZp (a8 : Byte)
  /-- ROL, zero page,X: opcode 0x36 (R358). -/
  | rolZpX (a8 : Byte)
  /-- ROL, absolute: opcode 0x2E (R358). -/
  | rolAbs (lo8 hi8 : Byte)
  /-- ROL, absolute,X: opcode 0x3E (R358). -/
  | rolAbsX (lo8 hi8 : Byte)
  /-- ROR, accumulator: opcode 0x6A (R359). -/
  | rorAcc
  /-- ROR, zero page: opcode 0x66 (R359). -/
  | rorZp (a8 : Byte)
  /-- ROR, zero page,X: opcode 0x76 (R359). -/
  | rorZpX (a8 : Byte)
  /-- ROR, absolute: opcode 0x6E (R359). -/
  | rorAbs (lo8 hi8 : Byte)
  /-- ROR, absolute,X: opcode 0x7E (R359). -/
  | rorAbsX (lo8 hi8 : Byte)
  -- Control transfer (44_control)
  /-- JMP, absolute: opcode 0x4C (R370). -/
  | jmpAbs (lo8 hi8 : Byte)
  /-- JMP, indirect: opcode 0x6C (R370). -/
  | jmpInd (lo8 hi8 : Byte)
  /-- JSR, absolute: opcode 0x20 (R372). -/
  | jsr (lo8 hi8 : Byte)
  /-- RTS, implied: opcode 0x60 (R373). -/
  | rts
  /-- BCC, relative: opcode 0x90 (R374). -/
  | bcc (off8 : Byte)
  /-- BCS, relative: opcode 0xB0 (R375). -/
  | bcs (off8 : Byte)
  /-- BEQ, relative: opcode 0xF0 (R376). -/
  | beq (off8 : Byte)
  /-- BNE, relative: opcode 0xD0 (R377). -/
  | bne (off8 : Byte)
  /-- BMI, relative: opcode 0x30 (R378). -/
  | bmi (off8 : Byte)
  /-- BPL, relative: opcode 0x10 (R379). -/
  | bpl (off8 : Byte)
  /-- BVC, relative: opcode 0x50 (R380). -/
  | bvc (off8 : Byte)
  /-- BVS, relative: opcode 0x70 (R381). -/
  | bvs (off8 : Byte)
  /-- BRK, implied: opcode 0x00 (R382). -/
  | brk (padding : Byte)
  /-- RTI, implied: opcode 0x40 (R383). -/
  | rti
  /-- NOP, implied: opcode 0xEA (R384). -/
  | nop
  -- Flags (45_flags)
  /-- CLC, implied: opcode 0x18 (R390). -/
  | clc
  /-- SEC, implied: opcode 0x38 (R391). -/
  | sec
  /-- CLI, implied: opcode 0x58 (R392). -/
  | cli
  /-- SEI, implied: opcode 0x78 (R393). -/
  | sei
  /-- CLD, implied: opcode 0xD8 (R394). -/
  | cld
  /-- SED, implied: opcode 0xF8 (R395). -/
  | sed
  /-- CLV, implied: opcode 0xB8 (R396). -/
  | clv
  deriving DecidableEq, Repr

end Sys2Proof
end

