-- ==== Sys2Proof/Decode.lean ====
section
/-! DEFINITION. Decoding, total on any list of bytes and refusing by name, from the opcode map of 30_encoding R226; then
the encoder, written from the encoding lines of the instruction rules R300 to R396 and the formats of R200. -/

namespace Sys2Proof

/-- Why a list of bytes is no instruction: an opcode byte with no table entry (30_encoding R220), or too few bytes. -/
inductive DecodeError where
  | illegalOpcode (op : Byte)
  | truncated
  deriving DecidableEq, Repr

/-- What decoding a list of bytes gives: an instruction and the bytes after it, or the refusal's name. -/
inductive Decoded where
  | instr (i : Instr) (rest : List Byte)
  | refused (e : DecodeError)
  deriving DecidableEq, Repr

/-- An entry of the opcode table: the operand bytes its format has (30_encoding R200) and the instruction they make.
`twoLate` is the format of JSR alone: two operand bytes of which the instruction's own sequence reads the second
(44_control R372, cycle 6). -/
inductive OpEntry where
  | bare    (i : Instr)
  | one     (f : Byte → Instr)
  | two     (f : Byte → Byte → Instr)
  | twoLate (f : Byte → Byte → Instr)

/-- Row 0x of the opcode map (30_encoding R226). -/
def opRow0 : List (Byte × OpEntry) := [
  (0x00#8, .one .brk),
  (0x01#8, .one .oraIndX),
  (0x05#8, .one .oraZp),
  (0x06#8, .one .aslZp),
  (0x08#8, .bare .php),
  (0x09#8, .one .oraImm),
  (0x0A#8, .bare .aslAcc),
  (0x0D#8, .two .oraAbs),
  (0x0E#8, .two .aslAbs)]

/-- Row 1x of the opcode map (30_encoding R226). -/
def opRow1 : List (Byte × OpEntry) := [
  (0x10#8, .one .bpl),
  (0x11#8, .one .oraIndY),
  (0x15#8, .one .oraZpX),
  (0x16#8, .one .aslZpX),
  (0x18#8, .bare .clc),
  (0x19#8, .two .oraAbsY),
  (0x1D#8, .two .oraAbsX),
  (0x1E#8, .two .aslAbsX)]

/-- Row 2x of the opcode map (30_encoding R226). -/
def opRow2 : List (Byte × OpEntry) := [
  (0x20#8, .twoLate .jsr),
  (0x21#8, .one .andIndX),
  (0x24#8, .one .bitZp),
  (0x25#8, .one .andZp),
  (0x26#8, .one .rolZp),
  (0x28#8, .bare .plp),
  (0x29#8, .one .andImm),
  (0x2A#8, .bare .rolAcc),
  (0x2C#8, .two .bitAbs),
  (0x2D#8, .two .andAbs),
  (0x2E#8, .two .rolAbs)]

/-- Row 3x of the opcode map (30_encoding R226). -/
def opRow3 : List (Byte × OpEntry) := [
  (0x30#8, .one .bmi),
  (0x31#8, .one .andIndY),
  (0x35#8, .one .andZpX),
  (0x36#8, .one .rolZpX),
  (0x38#8, .bare .sec),
  (0x39#8, .two .andAbsY),
  (0x3D#8, .two .andAbsX),
  (0x3E#8, .two .rolAbsX)]

/-- Row 4x of the opcode map (30_encoding R226). -/
def opRow4 : List (Byte × OpEntry) := [
  (0x40#8, .bare .rti),
  (0x41#8, .one .eorIndX),
  (0x45#8, .one .eorZp),
  (0x46#8, .one .lsrZp),
  (0x48#8, .bare .pha),
  (0x49#8, .one .eorImm),
  (0x4A#8, .bare .lsrAcc),
  (0x4C#8, .two .jmpAbs),
  (0x4D#8, .two .eorAbs),
  (0x4E#8, .two .lsrAbs)]

/-- Row 5x of the opcode map (30_encoding R226). -/
def opRow5 : List (Byte × OpEntry) := [
  (0x50#8, .one .bvc),
  (0x51#8, .one .eorIndY),
  (0x55#8, .one .eorZpX),
  (0x56#8, .one .lsrZpX),
  (0x58#8, .bare .cli),
  (0x59#8, .two .eorAbsY),
  (0x5D#8, .two .eorAbsX),
  (0x5E#8, .two .lsrAbsX)]

/-- Row 6x of the opcode map (30_encoding R226). -/
def opRow6 : List (Byte × OpEntry) := [
  (0x60#8, .bare .rts),
  (0x61#8, .one .adcIndX),
  (0x65#8, .one .adcZp),
  (0x66#8, .one .rorZp),
  (0x68#8, .bare .pla),
  (0x69#8, .one .adcImm),
  (0x6A#8, .bare .rorAcc),
  (0x6C#8, .two .jmpInd),
  (0x6D#8, .two .adcAbs),
  (0x6E#8, .two .rorAbs)]

/-- Row 7x of the opcode map (30_encoding R226). -/
def opRow7 : List (Byte × OpEntry) := [
  (0x70#8, .one .bvs),
  (0x71#8, .one .adcIndY),
  (0x75#8, .one .adcZpX),
  (0x76#8, .one .rorZpX),
  (0x78#8, .bare .sei),
  (0x79#8, .two .adcAbsY),
  (0x7D#8, .two .adcAbsX),
  (0x7E#8, .two .rorAbsX)]

/-- Row 8x of the opcode map (30_encoding R226). -/
def opRow8 : List (Byte × OpEntry) := [
  (0x81#8, .one .staIndX),
  (0x84#8, .one .styZp),
  (0x85#8, .one .staZp),
  (0x86#8, .one .stxZp),
  (0x88#8, .bare .dey),
  (0x8A#8, .bare .txa),
  (0x8C#8, .two .styAbs),
  (0x8D#8, .two .staAbs),
  (0x8E#8, .two .stxAbs)]

/-- Row 9x of the opcode map (30_encoding R226). -/
def opRow9 : List (Byte × OpEntry) := [
  (0x90#8, .one .bcc),
  (0x91#8, .one .staIndY),
  (0x94#8, .one .styZpX),
  (0x95#8, .one .staZpX),
  (0x96#8, .one .stxZpY),
  (0x98#8, .bare .tya),
  (0x99#8, .two .staAbsY),
  (0x9A#8, .bare .txs),
  (0x9D#8, .two .staAbsX)]

/-- Row Ax of the opcode map (30_encoding R226). -/
def opRowA : List (Byte × OpEntry) := [
  (0xA0#8, .one .ldyImm),
  (0xA1#8, .one .ldaIndX),
  (0xA2#8, .one .ldxImm),
  (0xA4#8, .one .ldyZp),
  (0xA5#8, .one .ldaZp),
  (0xA6#8, .one .ldxZp),
  (0xA8#8, .bare .tay),
  (0xA9#8, .one .ldaImm),
  (0xAA#8, .bare .tax),
  (0xAC#8, .two .ldyAbs),
  (0xAD#8, .two .ldaAbs),
  (0xAE#8, .two .ldxAbs)]

/-- Row Bx of the opcode map (30_encoding R226). -/
def opRowB : List (Byte × OpEntry) := [
  (0xB0#8, .one .bcs),
  (0xB1#8, .one .ldaIndY),
  (0xB4#8, .one .ldyZpX),
  (0xB5#8, .one .ldaZpX),
  (0xB6#8, .one .ldxZpY),
  (0xB8#8, .bare .clv),
  (0xB9#8, .two .ldaAbsY),
  (0xBA#8, .bare .tsx),
  (0xBC#8, .two .ldyAbsX),
  (0xBD#8, .two .ldaAbsX),
  (0xBE#8, .two .ldxAbsY)]

/-- Row Cx of the opcode map (30_encoding R226). -/
def opRowC : List (Byte × OpEntry) := [
  (0xC0#8, .one .cpyImm),
  (0xC1#8, .one .cmpIndX),
  (0xC4#8, .one .cpyZp),
  (0xC5#8, .one .cmpZp),
  (0xC6#8, .one .decZp),
  (0xC8#8, .bare .iny),
  (0xC9#8, .one .cmpImm),
  (0xCA#8, .bare .dex),
  (0xCC#8, .two .cpyAbs),
  (0xCD#8, .two .cmpAbs),
  (0xCE#8, .two .decAbs)]

/-- Row Dx of the opcode map (30_encoding R226). -/
def opRowD : List (Byte × OpEntry) := [
  (0xD0#8, .one .bne),
  (0xD1#8, .one .cmpIndY),
  (0xD5#8, .one .cmpZpX),
  (0xD6#8, .one .decZpX),
  (0xD8#8, .bare .cld),
  (0xD9#8, .two .cmpAbsY),
  (0xDD#8, .two .cmpAbsX),
  (0xDE#8, .two .decAbsX)]

/-- Row Ex of the opcode map (30_encoding R226). -/
def opRowE : List (Byte × OpEntry) := [
  (0xE0#8, .one .cpxImm),
  (0xE1#8, .one .sbcIndX),
  (0xE4#8, .one .cpxZp),
  (0xE5#8, .one .sbcZp),
  (0xE6#8, .one .incZp),
  (0xE8#8, .bare .inx),
  (0xE9#8, .one .sbcImm),
  (0xEA#8, .bare .nop),
  (0xEC#8, .two .cpxAbs),
  (0xED#8, .two .sbcAbs),
  (0xEE#8, .two .incAbs)]

/-- Row Fx of the opcode map (30_encoding R226). -/
def opRowF : List (Byte × OpEntry) := [
  (0xF0#8, .one .beq),
  (0xF1#8, .one .sbcIndY),
  (0xF5#8, .one .sbcZpX),
  (0xF6#8, .one .incZpX),
  (0xF8#8, .bare .sed),
  (0xF9#8, .two .sbcAbsY),
  (0xFD#8, .two .sbcAbsX),
  (0xFE#8, .two .incAbsX)]

/-- The opcode map of 30_encoding R226: 151 entries. -/
def opTable : List (Byte × OpEntry) :=
  opRow0 ++ opRow1 ++ opRow2 ++ opRow3 ++ opRow4 ++ opRow5 ++ opRow6 ++ opRow7 ++
  opRow8 ++ opRow9 ++ opRowA ++ opRowB ++ opRowC ++ opRowD ++ opRowE ++ opRowF

/-- The entry of an opcode byte in a list of rows. -/
def findOpcode (op : Byte) : List (Byte × OpEntry) → Option OpEntry
  | [] => none
  | (k, e) :: rows => if k = op then some e else findOpcode op rows

/-- `OpTable[op]` of 30_encoding R225: `none` for the 105 bytes of R220. -/
def opEntry (op : Byte) : Option OpEntry := findOpcode op opTable

/-- An entry applied to the bytes after the opcode (30_encoding R200, R222). -/
def OpEntry.apply : OpEntry → List Byte → Decoded
  | .bare i, rest => .instr i rest
  | .one f, b :: rest => .instr (f b) rest
  | .two f, b :: c :: rest => .instr (f b c) rest
  | .twoLate f, b :: c :: rest => .instr (f b c) rest
  | _, _ => .refused .truncated

/-- Decode the instruction at the head of a list of bytes (30_encoding R222). -/
def decode : List Byte → Decoded
  | [] => .refused .truncated
  | op :: rest =>
    match opEntry op with
    | none => .refused (.illegalOpcode op)
    | some e => e.apply rest

/-- The three bytes, lowest address first, of a number whose bits above `nbits` are taken as 0. -/
def tableBytes (nbits w : Nat) : List Byte :=
  let w' := w % 2 ^ nbits
  [BitVec.ofNat 8 w', BitVec.ofNat 8 (w' / 256), BitVec.ofNat 8 (w' / 65536)]

/-- The instruction the decoder reads from the bits of a row of spec/opcode_table.json. -/
def decodeTableWord (nbits w : Nat) : Option Instr :=
  match decode (tableBytes nbits w) with
  | .instr i _ => some i
  | .refused _ => none

/-- The opcode byte of an instruction (the **Encoding** lines of R300 to R396). -/
def Instr.opcode : Instr → Byte
  | .ldaImm _ => 0xA9#8
  | .ldaZp _ => 0xA5#8
  | .ldaZpX _ => 0xB5#8
  | .ldaAbs _ _ => 0xAD#8
  | .ldaAbsX _ _ => 0xBD#8
  | .ldaAbsY _ _ => 0xB9#8
  | .ldaIndX _ => 0xA1#8
  | .ldaIndY _ => 0xB1#8
  | .ldxImm _ => 0xA2#8
  | .ldxZp _ => 0xA6#8
  | .ldxZpY _ => 0xB6#8
  | .ldxAbs _ _ => 0xAE#8
  | .ldxAbsY _ _ => 0xBE#8
  | .ldyImm _ => 0xA0#8
  | .ldyZp _ => 0xA4#8
  | .ldyZpX _ => 0xB4#8
  | .ldyAbs _ _ => 0xAC#8
  | .ldyAbsX _ _ => 0xBC#8
  | .staZp _ => 0x85#8
  | .staZpX _ => 0x95#8
  | .staAbs _ _ => 0x8D#8
  | .staAbsX _ _ => 0x9D#8
  | .staAbsY _ _ => 0x99#8
  | .staIndX _ => 0x81#8
  | .staIndY _ => 0x91#8
  | .stxZp _ => 0x86#8
  | .stxZpY _ => 0x96#8
  | .stxAbs _ _ => 0x8E#8
  | .styZp _ => 0x84#8
  | .styZpX _ => 0x94#8
  | .styAbs _ _ => 0x8C#8
  | .tax => 0xAA#8
  | .tay => 0xA8#8
  | .txa => 0x8A#8
  | .tya => 0x98#8
  | .tsx => 0xBA#8
  | .txs => 0x9A#8
  | .pha => 0x48#8
  | .php => 0x08#8
  | .pla => 0x68#8
  | .plp => 0x28#8
  | .adcImm _ => 0x69#8
  | .adcZp _ => 0x65#8
  | .adcZpX _ => 0x75#8
  | .adcAbs _ _ => 0x6D#8
  | .adcAbsX _ _ => 0x7D#8
  | .adcAbsY _ _ => 0x79#8
  | .adcIndX _ => 0x61#8
  | .adcIndY _ => 0x71#8
  | .sbcImm _ => 0xE9#8
  | .sbcZp _ => 0xE5#8
  | .sbcZpX _ => 0xF5#8
  | .sbcAbs _ _ => 0xED#8
  | .sbcAbsX _ _ => 0xFD#8
  | .sbcAbsY _ _ => 0xF9#8
  | .sbcIndX _ => 0xE1#8
  | .sbcIndY _ => 0xF1#8
  | .andImm _ => 0x29#8
  | .andZp _ => 0x25#8
  | .andZpX _ => 0x35#8
  | .andAbs _ _ => 0x2D#8
  | .andAbsX _ _ => 0x3D#8
  | .andAbsY _ _ => 0x39#8
  | .andIndX _ => 0x21#8
  | .andIndY _ => 0x31#8
  | .oraImm _ => 0x09#8
  | .oraZp _ => 0x05#8
  | .oraZpX _ => 0x15#8
  | .oraAbs _ _ => 0x0D#8
  | .oraAbsX _ _ => 0x1D#8
  | .oraAbsY _ _ => 0x19#8
  | .oraIndX _ => 0x01#8
  | .oraIndY _ => 0x11#8
  | .eorImm _ => 0x49#8
  | .eorZp _ => 0x45#8
  | .eorZpX _ => 0x55#8
  | .eorAbs _ _ => 0x4D#8
  | .eorAbsX _ _ => 0x5D#8
  | .eorAbsY _ _ => 0x59#8
  | .eorIndX _ => 0x41#8
  | .eorIndY _ => 0x51#8
  | .bitZp _ => 0x24#8
  | .bitAbs _ _ => 0x2C#8
  | .cmpImm _ => 0xC9#8
  | .cmpZp _ => 0xC5#8
  | .cmpZpX _ => 0xD5#8
  | .cmpAbs _ _ => 0xCD#8
  | .cmpAbsX _ _ => 0xDD#8
  | .cmpAbsY _ _ => 0xD9#8
  | .cmpIndX _ => 0xC1#8
  | .cmpIndY _ => 0xD1#8
  | .cpxImm _ => 0xE0#8
  | .cpxZp _ => 0xE4#8
  | .cpxAbs _ _ => 0xEC#8
  | .cpyImm _ => 0xC0#8
  | .cpyZp _ => 0xC4#8
  | .cpyAbs _ _ => 0xCC#8
  | .incZp _ => 0xE6#8
  | .incZpX _ => 0xF6#8
  | .incAbs _ _ => 0xEE#8
  | .incAbsX _ _ => 0xFE#8
  | .decZp _ => 0xC6#8
  | .decZpX _ => 0xD6#8
  | .decAbs _ _ => 0xCE#8
  | .decAbsX _ _ => 0xDE#8
  | .inx => 0xE8#8
  | .iny => 0xC8#8
  | .dex => 0xCA#8
  | .dey => 0x88#8
  | .aslAcc => 0x0A#8
  | .aslZp _ => 0x06#8
  | .aslZpX _ => 0x16#8
  | .aslAbs _ _ => 0x0E#8
  | .aslAbsX _ _ => 0x1E#8
  | .lsrAcc => 0x4A#8
  | .lsrZp _ => 0x46#8
  | .lsrZpX _ => 0x56#8
  | .lsrAbs _ _ => 0x4E#8
  | .lsrAbsX _ _ => 0x5E#8
  | .rolAcc => 0x2A#8
  | .rolZp _ => 0x26#8
  | .rolZpX _ => 0x36#8
  | .rolAbs _ _ => 0x2E#8
  | .rolAbsX _ _ => 0x3E#8
  | .rorAcc => 0x6A#8
  | .rorZp _ => 0x66#8
  | .rorZpX _ => 0x76#8
  | .rorAbs _ _ => 0x6E#8
  | .rorAbsX _ _ => 0x7E#8
  | .jmpAbs _ _ => 0x4C#8
  | .jmpInd _ _ => 0x6C#8
  | .jsr _ _ => 0x20#8
  | .rts => 0x60#8
  | .bcc _ => 0x90#8
  | .bcs _ => 0xB0#8
  | .beq _ => 0xF0#8
  | .bne _ => 0xD0#8
  | .bmi _ => 0x30#8
  | .bpl _ => 0x10#8
  | .bvc _ => 0x50#8
  | .bvs _ => 0x70#8
  | .brk _ => 0x00#8
  | .rti => 0x40#8
  | .nop => 0xEA#8
  | .clc => 0x18#8
  | .sec => 0x38#8
  | .cli => 0x58#8
  | .sei => 0x78#8
  | .cld => 0xD8#8
  | .sed => 0xF8#8
  | .clv => 0xB8#8

/-- The operand bytes of an instruction, in memory order (30_encoding R200). -/
def Instr.operandBytes : Instr → List Byte
  | .ldaImm imm8 => [imm8]
  | .ldaZp a8 => [a8]
  | .ldaZpX a8 => [a8]
  | .ldaAbs lo8 hi8 => [lo8, hi8]
  | .ldaAbsX lo8 hi8 => [lo8, hi8]
  | .ldaAbsY lo8 hi8 => [lo8, hi8]
  | .ldaIndX p8 => [p8]
  | .ldaIndY p8 => [p8]
  | .ldxImm imm8 => [imm8]
  | .ldxZp a8 => [a8]
  | .ldxZpY a8 => [a8]
  | .ldxAbs lo8 hi8 => [lo8, hi8]
  | .ldxAbsY lo8 hi8 => [lo8, hi8]
  | .ldyImm imm8 => [imm8]
  | .ldyZp a8 => [a8]
  | .ldyZpX a8 => [a8]
  | .ldyAbs lo8 hi8 => [lo8, hi8]
  | .ldyAbsX lo8 hi8 => [lo8, hi8]
  | .staZp a8 => [a8]
  | .staZpX a8 => [a8]
  | .staAbs lo8 hi8 => [lo8, hi8]
  | .staAbsX lo8 hi8 => [lo8, hi8]
  | .staAbsY lo8 hi8 => [lo8, hi8]
  | .staIndX p8 => [p8]
  | .staIndY p8 => [p8]
  | .stxZp a8 => [a8]
  | .stxZpY a8 => [a8]
  | .stxAbs lo8 hi8 => [lo8, hi8]
  | .styZp a8 => [a8]
  | .styZpX a8 => [a8]
  | .styAbs lo8 hi8 => [lo8, hi8]
  | .tax => []
  | .tay => []
  | .txa => []
  | .tya => []
  | .tsx => []
  | .txs => []
  | .pha => []
  | .php => []
  | .pla => []
  | .plp => []
  | .adcImm imm8 => [imm8]
  | .adcZp a8 => [a8]
  | .adcZpX a8 => [a8]
  | .adcAbs lo8 hi8 => [lo8, hi8]
  | .adcAbsX lo8 hi8 => [lo8, hi8]
  | .adcAbsY lo8 hi8 => [lo8, hi8]
  | .adcIndX p8 => [p8]
  | .adcIndY p8 => [p8]
  | .sbcImm imm8 => [imm8]
  | .sbcZp a8 => [a8]
  | .sbcZpX a8 => [a8]
  | .sbcAbs lo8 hi8 => [lo8, hi8]
  | .sbcAbsX lo8 hi8 => [lo8, hi8]
  | .sbcAbsY lo8 hi8 => [lo8, hi8]
  | .sbcIndX p8 => [p8]
  | .sbcIndY p8 => [p8]
  | .andImm imm8 => [imm8]
  | .andZp a8 => [a8]
  | .andZpX a8 => [a8]
  | .andAbs lo8 hi8 => [lo8, hi8]
  | .andAbsX lo8 hi8 => [lo8, hi8]
  | .andAbsY lo8 hi8 => [lo8, hi8]
  | .andIndX p8 => [p8]
  | .andIndY p8 => [p8]
  | .oraImm imm8 => [imm8]
  | .oraZp a8 => [a8]
  | .oraZpX a8 => [a8]
  | .oraAbs lo8 hi8 => [lo8, hi8]
  | .oraAbsX lo8 hi8 => [lo8, hi8]
  | .oraAbsY lo8 hi8 => [lo8, hi8]
  | .oraIndX p8 => [p8]
  | .oraIndY p8 => [p8]
  | .eorImm imm8 => [imm8]
  | .eorZp a8 => [a8]
  | .eorZpX a8 => [a8]
  | .eorAbs lo8 hi8 => [lo8, hi8]
  | .eorAbsX lo8 hi8 => [lo8, hi8]
  | .eorAbsY lo8 hi8 => [lo8, hi8]
  | .eorIndX p8 => [p8]
  | .eorIndY p8 => [p8]
  | .bitZp a8 => [a8]
  | .bitAbs lo8 hi8 => [lo8, hi8]
  | .cmpImm imm8 => [imm8]
  | .cmpZp a8 => [a8]
  | .cmpZpX a8 => [a8]
  | .cmpAbs lo8 hi8 => [lo8, hi8]
  | .cmpAbsX lo8 hi8 => [lo8, hi8]
  | .cmpAbsY lo8 hi8 => [lo8, hi8]
  | .cmpIndX p8 => [p8]
  | .cmpIndY p8 => [p8]
  | .cpxImm imm8 => [imm8]
  | .cpxZp a8 => [a8]
  | .cpxAbs lo8 hi8 => [lo8, hi8]
  | .cpyImm imm8 => [imm8]
  | .cpyZp a8 => [a8]
  | .cpyAbs lo8 hi8 => [lo8, hi8]
  | .incZp a8 => [a8]
  | .incZpX a8 => [a8]
  | .incAbs lo8 hi8 => [lo8, hi8]
  | .incAbsX lo8 hi8 => [lo8, hi8]
  | .decZp a8 => [a8]
  | .decZpX a8 => [a8]
  | .decAbs lo8 hi8 => [lo8, hi8]
  | .decAbsX lo8 hi8 => [lo8, hi8]
  | .inx => []
  | .iny => []
  | .dex => []
  | .dey => []
  | .aslAcc => []
  | .aslZp a8 => [a8]
  | .aslZpX a8 => [a8]
  | .aslAbs lo8 hi8 => [lo8, hi8]
  | .aslAbsX lo8 hi8 => [lo8, hi8]
  | .lsrAcc => []
  | .lsrZp a8 => [a8]
  | .lsrZpX a8 => [a8]
  | .lsrAbs lo8 hi8 => [lo8, hi8]
  | .lsrAbsX lo8 hi8 => [lo8, hi8]
  | .rolAcc => []
  | .rolZp a8 => [a8]
  | .rolZpX a8 => [a8]
  | .rolAbs lo8 hi8 => [lo8, hi8]
  | .rolAbsX lo8 hi8 => [lo8, hi8]
  | .rorAcc => []
  | .rorZp a8 => [a8]
  | .rorZpX a8 => [a8]
  | .rorAbs lo8 hi8 => [lo8, hi8]
  | .rorAbsX lo8 hi8 => [lo8, hi8]
  | .jmpAbs lo8 hi8 => [lo8, hi8]
  | .jmpInd lo8 hi8 => [lo8, hi8]
  | .jsr lo8 hi8 => [lo8, hi8]
  | .rts => []
  | .bcc off8 => [off8]
  | .bcs off8 => [off8]
  | .beq off8 => [off8]
  | .bne off8 => [off8]
  | .bmi off8 => [off8]
  | .bpl off8 => [off8]
  | .bvc off8 => [off8]
  | .bvs off8 => [off8]
  | .brk padding => [padding]
  | .rti => []
  | .nop => []
  | .clc => []
  | .sec => []
  | .cli => []
  | .sei => []
  | .cld => []
  | .sed => []
  | .clv => []

/-- The bytes of an instruction (30_encoding R200). -/
def encode (i : Instr) : List Byte := i.opcode :: i.operandBytes

/-- The addressing mode of an instruction (the **Encoding** lines of R300 to R396). -/
def Instr.mode : Instr → AddrMode
  | .ldaImm _ => .imm
  | .ldaZp _ => .zp
  | .ldaZpX _ => .zpx
  | .ldaAbs _ _ => .abs
  | .ldaAbsX _ _ => .absx
  | .ldaAbsY _ _ => .absy
  | .ldaIndX _ => .indx
  | .ldaIndY _ => .indy
  | .ldxImm _ => .imm
  | .ldxZp _ => .zp
  | .ldxZpY _ => .zpy
  | .ldxAbs _ _ => .abs
  | .ldxAbsY _ _ => .absy
  | .ldyImm _ => .imm
  | .ldyZp _ => .zp
  | .ldyZpX _ => .zpx
  | .ldyAbs _ _ => .abs
  | .ldyAbsX _ _ => .absx
  | .staZp _ => .zp
  | .staZpX _ => .zpx
  | .staAbs _ _ => .abs
  | .staAbsX _ _ => .absx
  | .staAbsY _ _ => .absy
  | .staIndX _ => .indx
  | .staIndY _ => .indy
  | .stxZp _ => .zp
  | .stxZpY _ => .zpy
  | .stxAbs _ _ => .abs
  | .styZp _ => .zp
  | .styZpX _ => .zpx
  | .styAbs _ _ => .abs
  | .tax => .imp
  | .tay => .imp
  | .txa => .imp
  | .tya => .imp
  | .tsx => .imp
  | .txs => .imp
  | .pha => .imp
  | .php => .imp
  | .pla => .imp
  | .plp => .imp
  | .adcImm _ => .imm
  | .adcZp _ => .zp
  | .adcZpX _ => .zpx
  | .adcAbs _ _ => .abs
  | .adcAbsX _ _ => .absx
  | .adcAbsY _ _ => .absy
  | .adcIndX _ => .indx
  | .adcIndY _ => .indy
  | .sbcImm _ => .imm
  | .sbcZp _ => .zp
  | .sbcZpX _ => .zpx
  | .sbcAbs _ _ => .abs
  | .sbcAbsX _ _ => .absx
  | .sbcAbsY _ _ => .absy
  | .sbcIndX _ => .indx
  | .sbcIndY _ => .indy
  | .andImm _ => .imm
  | .andZp _ => .zp
  | .andZpX _ => .zpx
  | .andAbs _ _ => .abs
  | .andAbsX _ _ => .absx
  | .andAbsY _ _ => .absy
  | .andIndX _ => .indx
  | .andIndY _ => .indy
  | .oraImm _ => .imm
  | .oraZp _ => .zp
  | .oraZpX _ => .zpx
  | .oraAbs _ _ => .abs
  | .oraAbsX _ _ => .absx
  | .oraAbsY _ _ => .absy
  | .oraIndX _ => .indx
  | .oraIndY _ => .indy
  | .eorImm _ => .imm
  | .eorZp _ => .zp
  | .eorZpX _ => .zpx
  | .eorAbs _ _ => .abs
  | .eorAbsX _ _ => .absx
  | .eorAbsY _ _ => .absy
  | .eorIndX _ => .indx
  | .eorIndY _ => .indy
  | .bitZp _ => .zp
  | .bitAbs _ _ => .abs
  | .cmpImm _ => .imm
  | .cmpZp _ => .zp
  | .cmpZpX _ => .zpx
  | .cmpAbs _ _ => .abs
  | .cmpAbsX _ _ => .absx
  | .cmpAbsY _ _ => .absy
  | .cmpIndX _ => .indx
  | .cmpIndY _ => .indy
  | .cpxImm _ => .imm
  | .cpxZp _ => .zp
  | .cpxAbs _ _ => .abs
  | .cpyImm _ => .imm
  | .cpyZp _ => .zp
  | .cpyAbs _ _ => .abs
  | .incZp _ => .zp
  | .incZpX _ => .zpx
  | .incAbs _ _ => .abs
  | .incAbsX _ _ => .absx
  | .decZp _ => .zp
  | .decZpX _ => .zpx
  | .decAbs _ _ => .abs
  | .decAbsX _ _ => .absx
  | .inx => .imp
  | .iny => .imp
  | .dex => .imp
  | .dey => .imp
  | .aslAcc => .acc
  | .aslZp _ => .zp
  | .aslZpX _ => .zpx
  | .aslAbs _ _ => .abs
  | .aslAbsX _ _ => .absx
  | .lsrAcc => .acc
  | .lsrZp _ => .zp
  | .lsrZpX _ => .zpx
  | .lsrAbs _ _ => .abs
  | .lsrAbsX _ _ => .absx
  | .rolAcc => .acc
  | .rolZp _ => .zp
  | .rolZpX _ => .zpx
  | .rolAbs _ _ => .abs
  | .rolAbsX _ _ => .absx
  | .rorAcc => .acc
  | .rorZp _ => .zp
  | .rorZpX _ => .zpx
  | .rorAbs _ _ => .abs
  | .rorAbsX _ _ => .absx
  | .jmpAbs _ _ => .abs
  | .jmpInd _ _ => .ind
  | .jsr _ _ => .abs
  | .rts => .imp
  | .bcc _ => .rel
  | .bcs _ => .rel
  | .beq _ => .rel
  | .bne _ => .rel
  | .bmi _ => .rel
  | .bpl _ => .rel
  | .bvc _ => .rel
  | .bvs _ => .rel
  | .brk _ => .imp
  | .rti => .imp
  | .nop => .imp
  | .clc => .imp
  | .sec => .imp
  | .cli => .imp
  | .sei => .imp
  | .cld => .imp
  | .sed => .imp
  | .clv => .imp

/-- The length in bytes that 30_encoding R200 gives a format. -/
def AddrMode.length : AddrMode → Nat
  | .imp | .acc => 1
  | .imm | .zp | .zpx | .zpy | .rel | .indx | .indy => 2
  | .abs | .absx | .absy | .ind => 3

/-- The bytes an instruction occupies: the format's length (R200), and "1 byte plus a padding byte" for BRK (R382). -/
def Instr.length : Instr → Nat
  | .brk _ => 2
  | i => i.mode.length

end Sys2Proof
end

