-- ==== Sys2Proof/Config.lean ====
section
/-! DEFINITION. What an implementation fixes: the memory sizes, the parameters of a cartridge and of the open bus, and the
free values (the draws of 00_scope R9 that no law constrains), each an opaque constant without a body. -/

namespace Sys2Proof

/-- The nametable wiring a mapper-0 board may have (00_scope R9, R21). -/
inductive Mirroring where
  | horizontal
  | vertical
  deriving DecidableEq, Repr

/-- The parameter OPEN_BUS_MODE (00_scope R9; 20_memory R110). -/
inductive OpenBusMode where
  | latch
  | zero
  deriving DecidableEq, Repr

/-- The two PRG ROM lengths a block is built with, 16384 and 32768 bytes (00_scope R7, R22). -/
inductive PrgSize where
  | k16
  | k32
  deriving DecidableEq, Repr

/-- The mirroring field of a cartridge as it is presented, before 00_scope R22 refuses the last two. -/
inductive MirroringKind where
  | horizontal
  | vertical
  | fourScreen
  | singleScreen
  deriving DecidableEq, Repr

/-- An already-parsed cartridge as the host presents it at construction (00_scope R21, R22). -/
structure CartImage where
  prg       : List Byte
  chr       : List Byte
  mirroring : MirroringKind
  deriving DecidableEq, Repr

/-- `len(PRG)` in bytes (00_scope R7). -/
def PrgSize.bytes : PrgSize → Nat
  | .k16 => 16384
  | .k32 => 32768

namespace Config

/-- CPU work RAM in bytes (00_scope R7). -/
def ramSize : Nat := 2048

/-- Physical nametable RAM in bytes (00_scope R7). -/
def vramSize : Nat := 2048

/-- Palette cells, of 6 bits each (00_scope R7). -/
def palSize : Nat := 32

/-- Object-attribute memory in bytes (00_scope R7). -/
def oamSize : Nat := 256

/-- CHR ROM in bytes (00_scope R7). -/
def chrSize : Nat := 8192

/-- RENDER_FLAGS, the sprite-zero-hit bit of the n-th draw: "two bits under no law" (60_exceptions R608, U11).
FREE VALUE, log entry 7. -/
opaque renderHit : Nat → Bool

/-- RENDER_FLAGS, the sprite-overflow bit of the n-th draw (60_exceptions R608, U11). FREE VALUE, log entry 7. -/
opaque renderOverflow : Nat → Bool

/-- OAM_RENDER_READ, the byte of the n-th draw (20_memory R125, U9). FREE VALUE, log entry 8. -/
opaque oamRenderRead : Nat → Byte

/-- VRAM after the reset that takes the n-th draw, by cell (70_reset_and_hazards R700, U2). FREE VALUE, log entry 9. -/
opaque resetVram : Nat → Nat → Byte

/-- PAL after the reset that takes the n-th draw, by cell (70_reset_and_hazards R700, U2). FREE VALUE, log entry 9. -/
opaque resetPal : Nat → Nat → BitVec 6

/-- OAM after the reset that takes the n-th draw, by cell (70_reset_and_hazards R700, U2). FREE VALUE, log entry 9. -/
opaque resetOam : Nat → Nat → Byte

/-- `read_buffer` after the reset that takes the n-th draw (70_reset_and_hazards R700, U3). FREE VALUE, log entry 9. -/
opaque resetReadBuffer : Nat → Byte

end Config

end Sys2Proof
end

