-- ==== Sys2Proof/Machine/State.lean ====
section
/-! DEFINITION. The state of the block as plain data (10_state R40 and R41 to R69), the faults and refusals it stops with,
and the state right after reset (10_state R69, 70_reset_and_hazards R700). -/

namespace Sys2Proof.Machine

/-- A memory: (address, value) pairs in one canonical form, addresses strictly rising and no listed value 0. An unlisted
address reads as 0 (log entries 1, 2 and 4). `Memory 8` is a list of `Host.Cell`. -/
abbrev Memory (w : Nat) := List (Nat × BitVec w)

/-- The stored flags of P (10_state R45, R46: B and bit 5 are not stored). -/
structure Flags where
  /-- carry (R47) -/
  c : Bool
  /-- zero (R48) -/
  z : Bool
  /-- interrupt disable (R49) -/
  i : Bool
  /-- decimal, stored and without effect on arithmetic (R50) -/
  d : Bool
  /-- overflow (R51) -/
  v : Bool
  /-- negative (R52) -/
  n : Bool
  deriving DecidableEq, Repr

/-- The CPU registers (10_state R41 to R45, R53). -/
structure Cpu where
  a  : Byte
  x  : Byte
  y  : Byte
  /-- the stack pointer S, an offset into page one (R44) -/
  s  : Byte
  pc : Word
  p  : Flags
  deriving DecidableEq, Repr

/-- The interrupt controller (10_state R64). -/
structure NmiUnit where
  linePrev : Bool
  pending  : Bool
  deriving DecidableEq, Repr

/-- The controller port (10_state R66). -/
structure PadPort where
  strobe   : Bool
  shiftReg : Byte
  deriving DecidableEq, Repr

/-- The PPU: its registers (10_state R56 to R62), its memories (R67) and its sequencer counters (R63). -/
structure Ppu where
  ctrl       : Byte
  mask       : Byte
  vbl        : Bool
  s0hit      : Bool
  sovf       : Bool
  oamAddr    : Byte
  v          : BitVec 15
  t          : BitVec 15
  x          : BitVec 3
  w          : Bool
  readBuffer : Byte
  ioLatch    : Byte
  vram       : Memory 8
  pal        : Memory 6
  oam        : Memory 8
  scanline   : Nat
  dot        : Nat
  oddFrame   : Bool
  deriving DecidableEq, Repr

/-- The parameters fixed for the whole run (00_scope R9, R21): no step writes them. -/
structure Board where
  prg       : Memory 8
  prgSize   : PrgSize
  chr       : Memory 8
  mirroring : Mirroring
  openBus   : OpenBusMode
  deriving DecidableEq, Repr

/-- The button levels of controller 1, true when pressed (20_memory R145). -/
structure Buttons where
  a      : Bool
  b      : Bool
  select : Bool
  start  : Bool
  up     : Bool
  down   : Bool
  left   : Bool
  right  : Bool
  deriving DecidableEq, Repr

/-- The input levels the host drives between steps (00_scope R20, 60_exceptions R680). -/
structure Inputs where
  /-- the IRQ input, active low, tied to 1 in this block (60_exceptions R611) -/
  irqN     : Bool
  /-- a reset request waits to be taken (70_reset_and_hazards R700) -/
  resetReq : Bool
  buttons  : Buttons
  deriving DecidableEq, Repr

/-- The eight PPU registers, in the order of their numbers (20_memory R105). -/
inductive PpuReg where
  | ppuctrl
  | ppumask
  | ppustatus
  | oamaddr
  | oamdata
  | ppuscroll
  | ppuaddr
  | ppudata
  deriving DecidableEq, Repr

/-- The direction of an access (60_exceptions R650). -/
inductive Dir where
  | read
  | write
  deriving DecidableEq, Repr

/-- The fault record: the closed set of 60_exceptions R650, with the info each records. -/
inductive FaultRecord where
  /-- code 1 (30_encoding R220) -/
  | illegalOpcode (op : Byte) (addr : Word)
  /-- code 2 (20_memory R124, R127, R128) -/
  | unmodelledRenderingAccess (reg : PpuReg) (dir : Dir) (scanline dot : Nat)
  /-- code 3 (20_memory R132), unreachable -/
  | ppuAddressOutOfRange (a : Word)
  deriving DecidableEq, Repr

/-- The state of the block (10_state R40), with the parameters and inputs it runs under, and two fields of the model's
own (`framePulses`, log entry 11, and `draws`, log entry 10). -/
structure State where
  cpu         : Cpu
  /-- CPU cycles since the last reset began (R54) -/
  cycles      : Nat
  /-- the last byte driven on the CPU data bus (R55) -/
  busLatch    : Byte
  nmi         : NmiUnit
  /-- the page of a requested OAM DMA (R65) -/
  dmaRequest  : Option Byte
  pad         : PadPort
  /-- CPU work RAM (R67) -/
  ram         : Memory 8
  ppu         : Ppu
  /-- the fault record once the block has stopped (R68) -/
  fault       : Option FaultRecord
  board       : Board
  inputs      : Inputs
  /-- the numbers of the cycles of this step in which the output `frame_ready` is 1 (60_exceptions R604) -/
  framePulses : List Nat
  /-- how many draws have been taken, the argument of Config's free values -/
  draws       : Nat
  deriving DecidableEq, Repr

/-- Why the machine stops: the closed set of 60_exceptions R650. Each carries the state at the raise (R651), in which the
field `fault` holds the record (log entry 12). -/
inductive Fault where
  /-- Raised by `step` after the opcode fetch of one of the 105 bytes without a table entry (30_encoding R220). Safe: the
  model stops where a chip would run an undocumented instruction. -/
  | illegalOpcode (op : Byte) (addr : Word) (final : State)
  /-- Raised by any bus access that reads or writes PPUDATA or writes OAMDATA while rendering (20_memory R124, R127,
  R128). Safe: the model stops where a chip would access a wrong cell. -/
  | unmodelledRenderingAccess (reg : PpuReg) (dir : Dir) (scanline dot : Nat) (final : State)
  /-- Raised by an access to the PPU space above 0x3FFF (20_memory R132). Safe, and unreachable. -/
  | ppuAddressOutOfRange (a : Word) (final : State)
  deriving DecidableEq, Repr

/-- What the model turns away without a step. -/
inductive Refusal where
  /-- An instruction without a meaning, raised by `exec` alone. Safe. No arm raises it in this model. -/
  | notModelled (mnemonic : String)
  /-- Raised by `construct`: PRG is not 16384 or 32768 bytes long (00_scope R22). Safe: no block is built. -/
  | prgLength (n : Nat)
  /-- Raised by `construct`: CHR is not 8192 bytes long (00_scope R22). Safe: no block is built. -/
  | chrLength (n : Nat)
  /-- Raised by `construct`: four-screen or single-screen mirroring (00_scope R22). Safe: no block is built. -/
  | mirroringKind (k : MirroringKind)
  deriving DecidableEq, Repr

/-- No button pressed (log entry 6). -/
def Buttons.released : Buttons :=
  { a := false, b := false, select := false, start := false, up := false, down := false, left := false, right := false }

/-- The blank cartridge of `State.reset`: 32 KiB of PRG and 8 KiB of CHR with nothing listed (log entry 4). -/
def Board.blank : Board :=
  { prg := [], prgSize := .k32, chr := [], mirroring := .horizontal, openBus := .latch }

/-- The machine right after reset: the values of 10_state R69, with the draws it names at the values log entries 1 to 4
give (every memory blank, hence PC and `bus_latch` 0). -/
def State.reset : State :=
  { cpu := { a := 0x00, x := 0x00, y := 0x00, s := 0xFD, pc := 0x0000,
             p := { c := false, z := false, i := true, d := false, v := false, n := false } }
    cycles := 7
    busLatch := 0x00
    nmi := { linePrev := false, pending := false }
    dmaRequest := none
    pad := { strobe := false, shiftReg := 0x00 }
    ram := []
    ppu := { ctrl := 0x00, mask := 0x00, vbl := false, s0hit := false, sovf := false, oamAddr := 0x00,
             v := 0, t := 0, x := 0, w := false, readBuffer := 0x00, ioLatch := 0x00,
             vram := [], pal := [], oam := [], scanline := 0, dot := 21, oddFrame := false }
    fault := none
    board := Board.blank
    inputs := { irqN := true, resetReq := false, buttons := Buttons.released }
    framePulses := []
    draws := 0 }

end Sys2Proof.Machine
end

