-- ==== Sys2Proof/Machine/Memory.lean ====
section
/-! DEFINITION. The operations over a memory: reading and writing one cell, building one from a list of contents, and its
canonical form. -/

namespace Sys2Proof.Machine

/-- The value of cell `a`; an unlisted cell reads as 0 (log entries 1, 2 and 4). -/
def Memory.read {w : Nat} : Memory w → Nat → BitVec w
  | [], _ => 0#w
  | (k, b) :: m, a => if a = k then b else Memory.read m a

/-- The memory without cell `a`. -/
def Memory.erase {w : Nat} : Memory w → Nat → Memory w
  | [], _ => []
  | (k, b) :: m, a => if a = k then Memory.erase m a else (k, b) :: Memory.erase m a

/-- The memory with cell `a` put before the first higher address. -/
def Memory.insert {w : Nat} : Memory w → Nat → BitVec w → Memory w
  | [], a, b => [(a, b)]
  | (k, c) :: m, a, b => if a < k then (a, b) :: (k, c) :: m else (k, c) :: Memory.insert m a b

/-- The memory with cell `a` holding `b`. Writing what an unlisted cell reads as removes the entry. -/
def Memory.write {w : Nat} (m : Memory w) (a : Nat) (b : BitVec w) : Memory w :=
  if b = 0#w then Memory.erase m a else Memory.insert (Memory.erase m a) a b

/-- The memory that holds a list of values from cell `i` on. -/
def Memory.ofListFrom {w : Nat} (i : Nat) : List (BitVec w) → Memory w
  | [] => []
  | b :: bs => if b = 0#w then Memory.ofListFrom (i + 1) bs else (i, b) :: Memory.ofListFrom (i + 1) bs

/-- The memory of `size` cells that holds a list of values from cell 0 on. -/
def Memory.ofList {w : Nat} (size : Nat) (bs : List (BitVec w)) : Memory w :=
  Memory.ofListFrom 0 (bs.take size)

/-- The memory of `size` cells whose cell `i` holds `f i`. -/
def Memory.tabulate {w : Nat} (size : Nat) (f : Nat → BitVec w) : Memory w :=
  Memory.ofListFrom 0 ((List.range size).map f)

/-- The canonical form of a memory of `size` cells: addresses strictly rising and below `size`, no listed value 0. -/
abbrev Memory.wf {w : Nat} (size : Nat) (m : Memory w) : Prop :=
  m.Pairwise (fun x y => x.1 < y.1) ∧ ∀ c ∈ m, c.1 < size ∧ c.2 ≠ 0#w

end Sys2Proof.Machine
end

