-- ==== Sys2Proof/Machine/Bits.lean ====
section
/-! DEFINITION. The bit-field, extension and byte-order helpers of the notation (00_scope R10, 30_encoding R201, R215). -/

namespace Sys2Proof.Machine

/-- `cat16(hi, lo)`, that is `(hi << 8) | lo` (00_scope R10). -/
def cat16 (hi lo : Byte) : Word := hi ++ lo

/-- `zext_16(v)` (00_scope R10). -/
def zext16 (v : Byte) : Word := v.setWidth 16

/-- `sext_16(v)`: bit 7 copied to bits 15..8 (00_scope R10). -/
def sext16 (v : Byte) : Word := v.signExtend 16

/-- `page(a)`, bits 15..8 (00_scope R10, 30_encoding R215). -/
def page (a : Word) : Byte := a.extractLsb' 8 8

/-- Bits 7..0 of an address. -/
def lowByte (a : Word) : Byte := a.extractLsb' 0 8

/-- `v[lo+n-1:lo] <- x`: the field of `n` bits at `lo` replaced by `x` (00_scope R10). -/
def setField {w n : Nat} (v : BitVec w) (lo : Nat) (x : BitVec n) : BitVec w :=
  (v &&& ~~~((BitVec.allOnes n).setWidth w <<< lo)) ||| (x.setWidth w <<< lo)

end Sys2Proof.Machine
end

