-- ==== Sys2Proof/Machine/Sequencer.lean ====
section
/-! DEFINITION. The PPU scanline sequencer and the NMI edge check, and the end of a CPU cycle, which runs three dots
(00_scope R15; 60_exceptions R601 to R608, R610). -/

namespace Sys2Proof.Machine

/-- `rendering_enabled = PPUMASK[3] ∨ PPUMASK[4]` (10_state R57). -/
def Ppu.renderingEnabled (p : Ppu) : Bool := p.mask.getLsbD 3 || p.mask.getLsbD 4

/-- A rendering line: scanline 0..239 or 261 (00_scope R16). -/
def Ppu.renderingLine (p : Ppu) : Bool := decide (p.scanline ≤ 239 ∨ p.scanline = 261)

/-- `in_render` (20_memory, section 4). -/
def Ppu.inRender (p : Ppu) : Bool := p.renderingEnabled && p.renderingLine

/-- The PPU's NMI output, `vbl ∧ PPUCTRL[7]` (10_state R64). -/
def Ppu.nmiLine (p : Ppu) : Bool := p.vbl && p.ctrl.getLsbD 7

/-- The odd-frame skip holds as dot 339 of scanline 261 is left (60_exceptions R603). -/
def Ppu.skipsDot (p : Ppu) : Bool :=
  decide (p.scanline = 261 ∧ p.dot = 339) && p.oddFrame && p.renderingEnabled

/-- The dot after this one is the first of a scanline (60_exceptions R601, R603). -/
def Ppu.lineEnds (p : Ppu) : Bool := decide (p.dot = 340) || p.skipsDot

/-- The dot after this one is the first of a frame (60_exceptions R601). -/
def Ppu.frameEnds (p : Ppu) : Bool := p.lineEnds && decide (p.scanline = 261)

/-- The counters advanced by one dot (60_exceptions R601, part 1). -/
def Ppu.advance (p : Ppu) : Ppu :=
  { p with
    dot := if p.lineEnds then 0 else p.dot + 1
    scanline := if p.frameEnds then 0 else if p.lineEnds then p.scanline + 1 else p.scanline
    oddFrame := if p.frameEnds then !p.oddFrame else p.oddFrame }

/-- Dot (241, 1), vertical-blank entry (60_exceptions R604). -/
def Ppu.atVblankEntry (p : Ppu) : Bool := decide (p.scanline = 241 ∧ p.dot = 1)

/-- Dot (261, 1), pre-render line start (60_exceptions R605). -/
def Ppu.atPreRenderStart (p : Ppu) : Bool := decide (p.scanline = 261 ∧ p.dot = 1)

/-- The status bits set and cleared at the two dots of 60_exceptions R604 and R605. -/
def Ppu.lineEvents (p : Ppu) : Ppu :=
  { p with
    vbl := (p.vbl || p.atVblankEntry) && !p.atPreRenderStart
    s0hit := p.s0hit && !p.atPreRenderStart
    sovf := p.sovf && !p.atPreRenderStart }

/-- `IncCoarseX()` (60_exceptions R606). -/
def incCoarseX (v : BitVec 15) : BitVec 15 :=
  if v.extractLsb' 0 5 = 31#5 then
    setField (setField v 0 0#5) 10 (~~~(v.extractLsb' 10 1))
  else setField v 0 (v.extractLsb' 0 5 + 1#5)

/-- `IncY()` (60_exceptions R606). -/
def incY (v : BitVec 15) : BitVec 15 :=
  if (v.extractLsb' 12 3).toNat < 7 then setField v 12 (v.extractLsb' 12 3 + 1#3)
  else
    let u := setField v 12 0#3
    if u.extractLsb' 5 5 = 29#5 then setField (setField u 5 0#5) 11 (~~~(u.extractLsb' 11 1))
    else if u.extractLsb' 5 5 = 31#5 then setField u 5 0#5
    else setField u 5 (u.extractLsb' 5 5 + 1#5)

/-- The horizontal copy `v[10] <- t[10]; v[4:0] <- t[4:0]` (60_exceptions R606). -/
def copyHorizontal (t v : BitVec 15) : BitVec 15 :=
  setField (setField v 10 (t.extractLsb' 10 1)) 0 (t.extractLsb' 0 5)

/-- The vertical copy `v[14:11] <- t[14:11]; v[9:5] <- t[9:5]` (60_exceptions R606). -/
def copyVertical (t v : BitVec 15) : BitVec 15 :=
  setField (setField v 11 (t.extractLsb' 11 4)) 5 (t.extractLsb' 5 5)

/-- The rendering-time updates of `v`, in their order (60_exceptions R606). -/
def Ppu.renderV (p : Ppu) : BitVec 15 :=
  let v1 := if ((1 ≤ p.dot ∧ p.dot ≤ 256) ∨ (321 ≤ p.dot ∧ p.dot ≤ 336)) ∧ p.dot % 8 = 0
            then incCoarseX p.v else p.v
  let v2 := if p.dot = 256 then incY v1 else v1
  let v3 := if p.dot = 257 then copyHorizontal p.t v2 else v2
  if p.scanline = 261 ∧ 280 ≤ p.dot ∧ p.dot ≤ 304 then copyVertical p.t v3 else v3

/-- The rendering-line events: R606 for `v`, and R607 for OAMADDR at dots 257..320. -/
def Ppu.renderEvents (p : Ppu) : Ppu :=
  { p with
    v := if p.inRender then p.renderV else p.v
    oamAddr := if p.inRender && decide (257 ≤ p.dot ∧ p.dot ≤ 320) then 0x00#8 else p.oamAddr }

/-- A dot at which the renderer's two event bits are drawn (60_exceptions R608). -/
def Ppu.drawsFlags (p : Ppu) : Bool :=
  p.renderingEnabled && decide (p.scanline ≤ 239 ∧ 1 ≤ p.dot ∧ p.dot ≤ 256)

/-- The renderer's event bits taken in at a dot that draws them (60_exceptions R608). -/
def Ppu.takeFlags (hit ovf : Bool) (p : Ppu) : Ppu :=
  { p with s0hit := p.s0hit || (p.drawsFlags && hit), sovf := p.sovf || (p.drawsFlags && ovf) }

/-- `PpuDot()` (60_exceptions R601): the counters advance, then the events of the dot they name, in their order. -/
def ppuDot (s : State) : State :=
  let p := s.ppu.advance.lineEvents.renderEvents
  { s with
    ppu := p.takeFlags (Config.renderHit s.draws) (Config.renderOverflow s.draws)
    draws := if p.drawsFlags then s.draws + 1 else s.draws
    framePulses := if p.atVblankEntry then s.cycles :: s.framePulses else s.framePulses }

/-- The NMI edge check (60_exceptions R610). -/
def nmiCheck (s : State) : State :=
  { s with nmi := { linePrev := s.ppu.nmiLine
                    pending := s.nmi.pending || (s.ppu.nmiLine && !s.nmi.linePrev) } }

/-- One PPU dot with the NMI edge check that follows it (60_exceptions R601). -/
def tick (s : State) : State := nmiCheck (ppuDot s)

/-- `EndCycle()`: the cycle is counted, then three PPU dots run (00_scope R15). -/
def endCycle (s : State) : State := tick (tick (tick { s with cycles := s.cycles + 1 }))

end Sys2Proof.Machine
end

