-- ==== Sys2Proof/Machine/PpuPort.lean ====
section
/-! DEFINITION. The PPU address space (20_memory R116 to R119) and the register port (R120 to R133). A read is given in
three parts: the fault it raises, the byte it returns, and the state after it. A write in two. -/

namespace Sys2Proof.Machine

/-- The physical VRAM index of a nametable address (20_memory R118). -/
def ntIndex (m : Mirroring) (a : Word) : Nat :=
  let a' : Word := (a - 0x2000#16) &&& 0x0FFF#16
  let half := match m with
    | .horizontal => a'.getLsbD 11
    | .vertical => a'.getLsbD 10
  (if half then 0x400 else 0) + (a' &&& 0x03FF#16).toNat

/-- The palette cell of a palette address (20_memory R119). -/
def palIndex (a : Word) : Nat :=
  let i := (a &&& 0x001F#16).toNat
  if i = 0x10 ∨ i = 0x14 ∨ i = 0x18 ∨ i = 0x1C then i - 0x10 else i

/-- The fault of a PPU-space access: an address above 0x3FFF (20_memory R116, R117, R132). -/
def ppuSpaceFault (a : Word) : Option FaultRecord :=
  if 0x3FFF < a.toNat then some (.ppuAddressOutOfRange a) else none

/-- `PpuRead(a)` (20_memory R116). -/
def ppuSpaceRead (b : Board) (p : Ppu) (a : Word) : Byte :=
  if a.toNat ≤ 0x1FFF then b.chr.read a.toNat
  else if a.toNat ≤ 0x3EFF then p.vram.read (ntIndex b.mirroring a)
  else (p.pal.read (palIndex a)).setWidth 8

/-- `PpuWrite(a, d)`: CHR is ROM, a palette cell keeps six bits (20_memory R117). -/
def ppuSpaceWrite (b : Board) (p : Ppu) (a : Word) (d : Byte) : Ppu :=
  if a.toNat ≤ 0x1FFF then p
  else if a.toNat ≤ 0x3EFF then { p with vram := p.vram.write (ntIndex b.mirroring a) d }
  else { p with pal := p.pal.write (palIndex a) (d.setWidth 6) }

/-- The address PPUDATA presents, `v[13:0]` (20_memory R127, R128). -/
def Ppu.dataAddr (p : Ppu) : Word := (p.v.setWidth 14).setWidth 16

/-- `inc`: 32 if PPUCTRL[2] = 1, else 1 (20_memory, section 4). -/
def Ppu.increment (p : Ppu) : BitVec 15 := if p.ctrl.getLsbD 2 then 32#15 else 1#15

/-- The open-bus value of a latch under OPEN_BUS_MODE (20_memory R110; section 4 for `PpuOpen()`). -/
def openValue (b : Board) (latch : Byte) : Byte :=
  match b.openBus with
  | .latch => latch
  | .zero => 0x00#8

/-- Bits 4:2 of each sprite's attribute byte are not implemented (20_memory R124, U8). -/
def oamMask (cell : Nat) (d : Byte) : Byte := if cell % 4 = 2 then d &&& 0xE3#8 else d

/-- The address a palette or VRAM read fills `read_buffer` from (20_memory R127). -/
def Ppu.bufferAddr (p : Ppu) : Word :=
  if p.dataAddr.toNat < 0x3F00 then p.dataAddr else p.dataAddr - 0x1000#16

/-- The record of an access the renderer's ownership of the PPU bus makes fault (20_memory R133, 60_exceptions R650). -/
def Ppu.renderingFault (p : Ppu) (r : PpuReg) (dir : Dir) : FaultRecord :=
  .unmodelledRenderingAccess r dir p.scanline p.dot

/-- The fault a read of a PPU register raises, before it changes any state (20_memory R127, 60_exceptions R651). -/
def regReadFault (s : State) : PpuReg → Option FaultRecord
  | .ppudata =>
    if s.ppu.inRender then some (s.ppu.renderingFault .ppudata .read)
    else (ppuSpaceFault s.ppu.dataAddr).or (ppuSpaceFault s.ppu.bufferAddr)
  | _ => none

/-- The byte a read of a PPU register returns: PPUSTATUS R122, OAMDATA R125, PPUDATA R127, the write-only five R130. -/
def regRead (s : State) : PpuReg → Byte
  | .ppustatus =>
    BitVec.ofBool s.ppu.vbl ++ BitVec.ofBool s.ppu.s0hit ++ BitVec.ofBool s.ppu.sovf ++
      (openValue s.board s.ppu.ioLatch).extractLsb' 0 5
  | .oamdata => if s.ppu.inRender then Config.oamRenderRead s.draws else s.ppu.oam.read s.ppu.oamAddr.toNat
  | .ppudata =>
    if s.ppu.dataAddr.toNat < 0x3F00 then s.ppu.readBuffer
    else (openValue s.board s.ppu.ioLatch &&& 0xC0#8) ||| ppuSpaceRead s.board s.ppu s.ppu.dataAddr
  | _ => openValue s.board s.ppu.ioLatch

/-- The state after the register's own rule of a read: PPUSTATUS R122, OAMDATA R125, PPUDATA R127. -/
def afterRegRule (s : State) : PpuReg → State
  | .ppustatus => nmiCheck { s with ppu := { s.ppu with vbl := false, w := false } }
  | .oamdata => { s with draws := if s.ppu.inRender then s.draws + 1 else s.draws }
  | .ppudata =>
    { s with ppu := { s.ppu with readBuffer := ppuSpaceRead s.board s.ppu s.ppu.bufferAddr
                                 v := s.ppu.v + s.ppu.increment } }
  | _ => s

/-- The PPU's I/O latch set, after the register's own rule (20_memory R131). -/
def setIoLatch (d : Byte) (s : State) : State := { s with ppu := { s.ppu with ioLatch := d } }

/-- The state after a read of a PPU register (20_memory R131). -/
def afterRegRead (s : State) (r : PpuReg) : State := setIoLatch (regRead s r) (afterRegRule s r)

/-- The fault a write to a PPU register raises, before it changes any state (20_memory R124, R128). -/
def regWriteFault (s : State) : PpuReg → Option FaultRecord
  | .oamdata => if s.ppu.inRender then some (s.ppu.renderingFault .oamdata .write) else none
  | .ppudata =>
    if s.ppu.inRender then some (s.ppu.renderingFault .ppudata .write) else ppuSpaceFault s.ppu.dataAddr
  | _ => none

/-- PPUSCROLL (20_memory R126). -/
def Ppu.writeScroll (d : Byte) (p : Ppu) : Ppu :=
  if p.w then
    { p with t := setField (setField p.t 12 (d.extractLsb' 0 3)) 5 (d.extractLsb' 3 5), w := false }
  else { p with t := setField p.t 0 (d.extractLsb' 3 5), x := d.extractLsb' 0 3, w := true }

/-- PPUADDR, high byte first (20_memory R129). -/
def Ppu.writeAddr (d : Byte) (p : Ppu) : Ppu :=
  if p.w then
    let t := setField p.t 0 d
    { p with t := t, v := t, w := false }
  else { p with t := setField (setField p.t 8 (d.extractLsb' 0 6)) 14 0#1, w := true }

/-- The state after the register's own rule of a write: R120, R121, R123, R124, R126, R128, R129, and R130 for PPUSTATUS. -/
def afterRegWriteRule (s : State) (d : Byte) : PpuReg → State
  | .ppuctrl => nmiCheck { s with ppu := { s.ppu with ctrl := d, t := setField s.ppu.t 10 (d.extractLsb' 0 2) } }
  | .ppumask => { s with ppu := { s.ppu with mask := d } }
  | .ppustatus => s
  | .oamaddr => { s with ppu := { s.ppu with oamAddr := d } }
  | .oamdata =>
    { s with ppu := { s.ppu with oam := s.ppu.oam.write s.ppu.oamAddr.toNat (oamMask s.ppu.oamAddr.toNat d)
                                 oamAddr := s.ppu.oamAddr + 1#8 } }
  | .ppuscroll => { s with ppu := s.ppu.writeScroll d }
  | .ppuaddr => { s with ppu := s.ppu.writeAddr d }
  | .ppudata =>
    { s with ppu := { ppuSpaceWrite s.board s.ppu s.ppu.dataAddr d with v := s.ppu.v + s.ppu.increment } }

/-- The state after a write to a PPU register (20_memory R131). -/
def afterRegWrite (s : State) (r : PpuReg) (d : Byte) : State := setIoLatch d (afterRegWriteRule s d r)

end Sys2Proof.Machine
end

