-- ==== Sys2Proof/Machine/Bus.lean ====
section
/-! DEFINITION. The CPU address decoder (20_memory R100) and the effect of one read and one write through it, and the
places where the block stores bytes (`Loc`), in whose terms frames are stated. -/

namespace Sys2Proof.Machine

/-- What a CPU address selects (the table of 20_memory R100). -/
inductive Target where
  /-- CPU RAM, by physical cell (R104) -/
  | ram (cell : Nat)
  /-- a PPU register (R105) -/
  | ppu (r : PpuReg)
  /-- 0x4014 (R108) -/
  | oamDma
  /-- 0x4016 (R145, R146) -/
  | pad1
  /-- 0x4017 (R111) -/
  | pad2
  /-- an address with no device (R112) -/
  | unmapped
  /-- PRG ROM (R106, R107) -/
  | prg
  deriving DecidableEq, Repr

/-- The PPU register of number `r` (20_memory R105). -/
def ppuRegOf (r : Nat) : PpuReg :=
  match r with
  | 0 => .ppuctrl
  | 1 => .ppumask
  | 2 => .ppustatus
  | 3 => .oamaddr
  | 4 => .oamdata
  | 5 => .ppuscroll
  | 6 => .ppuaddr
  | _ => .ppudata

/-- The address decoder (20_memory R100). -/
def decodeAddr (a : Word) : Target :=
  if a.toNat ≤ 0x1FFF then .ram (a &&& 0x07FF#16).toNat
  else if a.toNat ≤ 0x3FFF then .ppu (ppuRegOf (a &&& 0x0007#16).toNat)
  else if a.toNat = 0x4014 then .oamDma
  else if a.toNat = 0x4016 then .pad1
  else if a.toNat = 0x4017 then .pad2
  else if a.toNat ≤ 0x7FFF then .unmapped
  else .prg

/-- The PRG byte index of an address: `(a - 0x8000) mod len(PRG)` (20_memory R106). -/
def prgIndex (sz : PrgSize) (a : Word) : Nat := (a.toNat - 0x8000) % sz.bytes

/-- `CpuOpen()` (20_memory R110). -/
def cpuOpen (s : State) : Byte := openValue s.board s.busLatch

/-- `pack(B)` (20_memory R145). -/
def packButtons (b : Buttons) : Byte :=
  BitVec.ofBool b.right ++ BitVec.ofBool b.left ++ BitVec.ofBool b.down ++ BitVec.ofBool b.up ++
    BitVec.ofBool b.start ++ BitVec.ofBool b.select ++ BitVec.ofBool b.b ++ BitVec.ofBool b.a

/-- The bit a read of 0x4016 returns (20_memory R146). -/
def padBit (s : State) : Bool := if s.pad.strobe then s.inputs.buttons.a else s.pad.shiftReg.getLsbD 0

/-- The controller port after a read of 0x4016 (20_memory R146). -/
def padAfterRead (s : State) : PadPort :=
  if s.pad.strobe then { s.pad with shiftReg := packButtons s.inputs.buttons }
  else { s.pad with shiftReg := (s.pad.shiftReg >>> 1) ||| 0x80#8 }

/-- The controller port after a write of `d` to 0x4016 (20_memory R145). -/
def padAfterWrite (s : State) (d : Byte) : PadPort :=
  { shiftReg := if s.pad.strobe || d.getLsbD 0 then packButtons s.inputs.buttons else s.pad.shiftReg
    strobe := d.getLsbD 0 }

/-- The fault a CPU read of `a` raises. -/
def readFault (s : State) (a : Word) : Option FaultRecord :=
  match decodeAddr a with
  | .ppu r => regReadFault s r
  | _ => none

/-- The byte a CPU read of `a` returns (20_memory R100). -/
def readByte (s : State) (a : Word) : Byte :=
  match decodeAddr a with
  | .ram i => s.ram.read i
  | .ppu r => regRead s r
  | .pad1 => (cpuOpen s &&& 0xE0#8) ||| (BitVec.ofBool (padBit s)).setWidth 8
  | .pad2 => cpuOpen s &&& 0xE0#8
  | .oamDma | .unmapped => cpuOpen s
  | .prg => s.board.prg.read (prgIndex s.board.prgSize a)

/-- The state after the side effects of a CPU read of `a` (20_memory R113). -/
def afterRead (s : State) (a : Word) : State :=
  match decodeAddr a with
  | .ppu r => afterRegRead s r
  | .pad1 => { s with pad := padAfterRead s }
  | .ram _ | .oamDma | .pad2 | .unmapped | .prg => s

/-- The fault a CPU write to `a` raises. -/
def writeFault (s : State) (a : Word) : Option FaultRecord :=
  match decodeAddr a with
  | .ppu r => regWriteFault s r
  | _ => none

/-- The state after a CPU write of `d` to `a` (20_memory R100, R104, R107, R108, R112, R145). -/
def afterWrite (s : State) (a : Word) (d : Byte) : State :=
  match decodeAddr a with
  | .ram i => { s with ram := s.ram.write i d }
  | .ppu r => afterRegWrite s r d
  | .oamDma => { s with dmaRequest := some d }
  | .pad1 => { s with pad := padAfterWrite s d }
  | .pad2 | .unmapped | .prg => s

/-- A cell in which the block stores a value (10_state R67). -/
inductive Loc where
  | ram (i : Nat)
  | vram (i : Nat)
  | pal (i : Nat)
  | oam (i : Nat)
  | prg (i : Nat)
  | chr (i : Nat)
  deriving DecidableEq, Repr

/-- The value a cell holds, a palette cell's six bits zero-extended. -/
def State.cell (s : State) : Loc → Byte
  | .ram i => s.ram.read i
  | .vram i => s.ppu.vram.read i
  | .pal i => (s.ppu.pal.read i).setWidth 8
  | .oam i => s.ppu.oam.read i
  | .prg i => s.board.prg.read i
  | .chr i => s.board.chr.read i

/-- The cell a PPUDATA write stores to: none below 0x2000, where CHR is ROM (20_memory R117). -/
def ppuSpaceLoc (b : Board) (a : Word) : Option Loc :=
  if a.toNat ≤ 0x1FFF then none
  else if a.toNat ≤ 0x3EFF then some (.vram (ntIndex b.mirroring a))
  else some (.pal (palIndex a))

/-- The cell a CPU write to `a` in state `s` stores to, if it stores to one. -/
def storeLoc (s : State) (a : Word) : Option Loc :=
  match decodeAddr a with
  | .ram i => some (.ram i)
  | .ppu .oamdata => some (.oam s.ppu.oamAddr.toNat)
  | .ppu .ppudata => ppuSpaceLoc s.board s.ppu.dataAddr
  | _ => none

end Sys2Proof.Machine
end

