-- ==== Sys2Proof/Machine/Flags.lean ====
section
/-! DEFINITION. Every flag computation and the register effects built on it: N and Z (00_scope R13), the image of P
(10_state R45, R46), addition and subtraction (42_arith_logic R330, R331), compare and bit test (R335 to R338), and the
read-modify-write functions (43_incdec_shift R350, R351, R356 to R359). -/

namespace Sys2Proof.Machine

/-- `SetNZ(v)` (00_scope R13). -/
def setNZ (v : Byte) (p : Flags) : Flags :=
  { p with z := decide (v = 0x00#8), n := v.getLsbD 7 }

/-- `Pimage(b)`: `N V 1 B D I Z C` from bit 7 to bit 0 (10_state R46). -/
def pImage (p : Flags) (b : Bool) : Byte :=
  BitVec.ofBool p.n ++ BitVec.ofBool p.v ++ 1#1 ++ BitVec.ofBool b ++
    BitVec.ofBool p.d ++ BitVec.ofBool p.i ++ BitVec.ofBool p.z ++ BitVec.ofBool p.c

/-- The flags a pulled status byte gives; its bits 5 and 4 are ignored (10_state R46, 41_stack R323). -/
def pulledFlags (b : Byte) : Flags :=
  { c := b.getLsbD 0, z := b.getLsbD 1, i := b.getLsbD 2, d := b.getLsbD 3, v := b.getLsbD 6, n := b.getLsbD 7 }

/-- `A <- v; SetNZ(A)`. -/
def Cpu.loadA (v : Byte) (r : Cpu) : Cpu := { r with a := v, p := setNZ v r.p }

/-- `X <- v; SetNZ(X)`. -/
def Cpu.loadX (v : Byte) (r : Cpu) : Cpu := { r with x := v, p := setNZ v r.p }

/-- `Y <- v; SetNZ(Y)`. -/
def Cpu.loadY (v : Byte) (r : Cpu) : Cpu := { r with y := v, p := setNZ v r.p }

/-- The 9-bit sum of ADC, whose bit 8 is the carry out (42_arith_logic R330, R339). -/
def addSum (a m : Byte) (c : Bool) : BitVec 9 :=
  a.setWidth 9 + m.setWidth 9 + (BitVec.ofBool c).setWidth 9

/-- ADC (42_arith_logic R330). D has no effect (R339). -/
def Cpu.adc (m : Byte) (r : Cpu) : Cpu :=
  let sum := addSum r.a m r.p.c
  let res : Byte := sum.setWidth 8
  { r with
    a := res
    p := setNZ res { r.p with v := (~~~(r.a ^^^ m) &&& (r.a ^^^ res)).getLsbD 7, c := sum.getLsbD 8 } }

/-- SBC, "exactly ADC with operand m ^ 0xFF" (42_arith_logic R331). -/
def Cpu.sbc (m : Byte) (r : Cpu) : Cpu := r.adc (m ^^^ 0xFF#8)

/-- AND (42_arith_logic R332). -/
def Cpu.and (m : Byte) (r : Cpu) : Cpu := r.loadA (r.a &&& m)

/-- ORA (42_arith_logic R333). -/
def Cpu.ora (m : Byte) (r : Cpu) : Cpu := r.loadA (r.a ||| m)

/-- EOR (42_arith_logic R334). -/
def Cpu.eor (m : Byte) (r : Cpu) : Cpu := r.loadA (r.a ^^^ m)

/-- BIT: Z from A & m, N and V from m (42_arith_logic R335). -/
def Cpu.bit (m : Byte) (r : Cpu) : Cpu :=
  { r with p := { r.p with z := decide (r.a &&& m = 0x00#8), n := m.getLsbD 7, v := m.getLsbD 6 } }

/-- The flags of a compare of register value `q` with `m` (42_arith_logic R336): C is `q >= m` unsigned, N and Z from
the difference modulo 256. -/
def compareFlags (q m : Byte) (p : Flags) : Flags :=
  setNZ (q - m) { p with c := decide (m.toNat ≤ q.toNat) }

/-- CMP (42_arith_logic R336). -/
def Cpu.cmp (m : Byte) (r : Cpu) : Cpu := { r with p := compareFlags r.a m r.p }

/-- CPX (42_arith_logic R337). -/
def Cpu.cpx (m : Byte) (r : Cpu) : Cpu := { r with p := compareFlags r.x m r.p }

/-- CPY (42_arith_logic R338). -/
def Cpu.cpy (m : Byte) (r : Cpu) : Cpu := { r with p := compareFlags r.y m r.p }

/-- A read-modify-write function: from the flags and the operand, the result `f(m)` and the flags after it. -/
abbrev RmwFun := Flags → Byte → Byte × Flags

/-- INC (43_incdec_shift R350). -/
def incFun : RmwFun := fun p m => (m + 1#8, setNZ (m + 1#8) p)

/-- DEC (43_incdec_shift R351). -/
def decFun : RmwFun := fun p m => (m - 1#8, setNZ (m - 1#8) p)

/-- ASL (43_incdec_shift R356). -/
def aslFun : RmwFun := fun p m =>
  let r : Byte := m <<< 1
  (r, setNZ r { p with c := m.getLsbD 7 })

/-- LSR (43_incdec_shift R357). -/
def lsrFun : RmwFun := fun p m =>
  let r : Byte := m >>> 1
  (r, setNZ r { p with c := m.getLsbD 0 })

/-- ROL (43_incdec_shift R358). -/
def rolFun : RmwFun := fun p m =>
  let r : Byte := (m <<< 1) ||| (BitVec.ofBool p.c).setWidth 8
  (r, setNZ r { p with c := m.getLsbD 7 })

/-- ROR (43_incdec_shift R359). -/
def rorFun : RmwFun := fun p m =>
  let r : Byte := (m >>> 1) ||| ((BitVec.ofBool p.c).setWidth 8 <<< 7)
  (r, setNZ r { p with c := m.getLsbD 0 })

end Sys2Proof.Machine
end

