-- ==== Sys2Proof/Machine/Ops.lean ====
section
/-! DEFINITION. The named operations of the control unit: bus cycles (00_scope R12 to R15), the instruction stream and the
stack (R13), taking an exception and returning from one (60_exceptions R613, R614, R620; 44_control R382, R383), OAM DMA
(20_memory R140, R141), the reset sequence and construction (70_reset_and_hazards R700, R701; 00_scope R22), and what the
host may do between steps (60_exceptions R680). -/

namespace Sys2Proof.Machine

/-- A piece of the control unit's work: from a state, a value and the state after it, or the fault record raised and the
state at the raise (00_scope R14). -/
abbrev M (α : Type) := EStateM FaultRecord State α

/-- `raise F(info)`: the field `fault` holds the record, and nothing further happens (00_scope R14, 60_exceptions R651). -/
def raise {α : Type} (r : FaultRecord) : M α := fun s => .error r { s with fault := some r }

/-- The CPU registers. -/
def getCpu : M Cpu := fun s => .ok s.cpu s

/-- A change of the CPU registers alone. -/
def modifyCpu (f : Cpu → Cpu) : M Unit := fun s => .ok () { s with cpu := f s.cpu }

/-- `MemRead(addr, 1)` (00_scope R12). A faulting access changes nothing and does not end its cycle (60_exceptions R651). -/
def memRead (a : Word) : M Byte := fun s =>
  match readFault s a with
  | some r => raise r s
  | none => .ok (readByte s a) (endCycle { afterRead s a with busLatch := readByte s a })

/-- `MemWrite(addr, 1, v)` (00_scope R12). -/
def memWrite (a : Word) (d : Byte) : M Unit := fun s =>
  match writeFault s a with
  | some r => raise r s
  | none => .ok () (endCycle { afterWrite s a d with busLatch := d })

/-- `Dummy(addr)`: a read whose result is discarded (00_scope R12). -/
def dummy (a : Word) : M Unit := do
  let _ ← memRead a

/-- `Idle()`: a cycle without a bus access (00_scope R12). -/
def idle : M Unit := fun s => .ok () (endCycle s)

/-- `PC <- a`. -/
def setPc (a : Word) : M Unit := modifyCpu fun r => { r with pc := a }

/-- `Fetch()` (00_scope R13). -/
def fetch : M Byte := do
  let r ← getCpu
  let b ← memRead r.pc
  setPc (r.pc + 1#16)
  return b

/-- The stack address `0x0100 | S` (00_scope R13). -/
def stackAddr (s : Byte) : Word := cat16 0x01#8 s

/-- `Push(v)` (00_scope R13). -/
def push (v : Byte) : M Unit := do
  let r ← getCpu
  memWrite (stackAddr r.s) v
  modifyCpu fun q => { q with s := q.s - 1#8 }

/-- `Pull()` (00_scope R13). -/
def pull : M Byte := do
  modifyCpu fun q => { q with s := q.s + 1#8 }
  let r ← getCpu
  memRead (stackAddr r.s)

/-- `Dummy(PC)`, cycle 2 of every one-byte instruction (30_encoding R203). -/
def dummyPc : M Unit := do
  let r ← getCpu
  dummy r.pc

/-- `Dummy(0x0100 | S)` (41_stack R322). -/
def dummyStack : M Unit := do
  let r ← getCpu
  dummy (stackAddr r.s)

/-- `PC <- cat16(hi, lo)` read from a vector, low byte first (60_exceptions R614, R615). -/
def jumpVector (vec : Word) : M Unit := do
  let lo ← memRead vec
  let hi ← memRead (vec + 1#16)
  setPc (cat16 hi lo)

/-- The NMI vector (60_exceptions R615). -/
def nmiVector : Word := 0xFFFA#16

/-- The reset vector (60_exceptions R615). -/
def resetVector : Word := 0xFFFC#16

/-- The vector IRQ and BRK share (60_exceptions R615). -/
def irqVector : Word := 0xFFFE#16

/-- Taking an exception, the part interrupts and BRK share (60_exceptions R614, R620; 44_control R382): PC and the image
of P with `b` as its B bit are pushed, I is set, and PC is loaded from the vector. D is not changed. -/
def takeException (b : Bool) (vec : Word) : M Unit := do
  let r ← getCpu
  push (page r.pc)
  push (lowByte r.pc)
  push (pImage r.p b)
  modifyCpu fun q => { q with p := { q.p with i := true } }
  jumpVector vec

/-- `Enter(vec)`, the interrupt entry sequence of 7 cycles (60_exceptions R614). -/
def enter (vec : Word) : M Unit := do
  dummyPc
  dummyPc
  takeException false vec

/-- Returning from an exception: the six flags, then PC, from the stack (44_control R383, cycles 4 to 6). -/
def returnFromException : M Unit := do
  let b ← pull
  modifyCpu fun q => { q with p := pulledFlags b }
  let lo ← pull
  let hi ← pull
  setPc (cat16 hi lo)

/-- `nmi_pending <- 0` (60_exceptions R613). -/
def clearNmi : M Unit := fun s => .ok () { s with nmi := { s.nmi with pending := false } }

/-- `InterruptDue()`: NMI, then IRQ; true when an entry sequence was run (60_exceptions R613). -/
def interruptDue : M Bool := fun s =>
  if s.nmi.pending then
    (do clearNmi; enter nmiVector; return true : M Bool) s
  else if !s.inputs.irqN && !s.cpu.p.i then
    (do enter irqVector; return true : M Bool) s
  else .ok false s

/-- The read and write pairs of an OAM DMA from page `p`, for the given offsets in turn (20_memory R140). -/
def dmaCopy (p : Byte) : List Byte → M Unit
  | [] => pure ()
  | i :: is => do
    let b ← memRead (cat16 p i)
    memWrite 0x2004#16 b
    dmaCopy p is

/-- The offsets 0..255 of a page (20_memory R140). -/
def pageOffsets : List Byte := (List.range 256).map (BitVec.ofNat 8)

/-- `RunDma()` for page `p`: the idle cycle, the alignment cycle when `cycles` is odd, and the 256 pairs (20_memory R140,
R141). -/
def runDma (p : Byte) : M Unit := fun s =>
  if s.cycles % 2 = 1 then
    (do idle; idle; dmaCopy p pageOffsets : M Unit) { s with dmaRequest := none }
  else
    (do idle; dmaCopy p pageOffsets : M Unit) { s with dmaRequest := none }

/-- The DMA an instruction asked for, if it asked for one (30_encoding R225, 20_memory R140). -/
def runRequestedDma : M Unit := fun s =>
  match s.dmaRequest with
  | none => .ok () s
  | some p => runDma p s

/-- What the reset sequence draws afresh: "read_buffer, VRAM, PAL, OAM" (70_reset_and_hazards R700). -/
structure PpuDraw where
  vram       : Memory 8
  pal        : Memory 6
  oam        : Memory 8
  readBuffer : Byte
  deriving DecidableEq, Repr

/-- OAM of the given contents, its unimplemented bits 0 (20_memory R124, U8; log entry 16). -/
def oamOf (f : Nat → Byte) : Memory 8 := Memory.tabulate Config.oamSize fun i => oamMask i (f i)

/-- The fresh draw a reset takes, the `n`-th draw of the machine (70_reset_and_hazards R700; log entry 9). -/
@[irreducible] def resetDraw (n : Nat) : PpuDraw :=
  { vram := Memory.tabulate Config.vramSize (Config.resetVram n)
    pal := Memory.tabulate Config.palSize (Config.resetPal n)
    oam := oamOf (Config.resetOam n)
    readBuffer := Config.resetReadBuffer n }

/-- The registers as `Reset()` sets them before its cycles (70_reset_and_hazards R700). RAM, `ppu_io_latch` and
`bus_latch` are unchanged. The reset request is consumed. -/
def resetRegisters (d : PpuDraw) (s : State) : State :=
  { s with
    cycles := 0
    cpu := { s.cpu with a := 0x00, x := 0x00, y := 0x00, s := 0xFD,
                        p := { c := false, z := false, i := true, d := false, v := false, n := false } }
    nmi := { linePrev := false, pending := false }
    dmaRequest := none
    pad := { strobe := false, shiftReg := 0x00 }
    ppu := { s.ppu with ctrl := 0x00, mask := 0x00, vbl := false, s0hit := false, sovf := false, oamAddr := 0x00,
                        v := 0, t := 0, x := 0, w := false, scanline := 0, dot := 0, oddFrame := false,
                        readBuffer := d.readBuffer, vram := d.vram, pal := d.pal, oam := d.oam }
    inputs := { s.inputs with resetReq := false } }

/-- `Reset()` with the draw it takes: the registers, five idle cycles, the two vector reads (70_reset_and_hazards R700). -/
def resetSequence (d : PpuDraw) : M Unit := fun s =>
  (do idle; idle; idle; idle; idle; jumpVector resetVector : M Unit) (resetRegisters d s)

/-- A host reset request taken: the sequence with a fresh draw (70_reset_and_hazards R700; log entry 9). -/
def takeReset : M Unit := fun s => resetSequence (resetDraw s.draws) { s with draws := s.draws + 1 }

/-- The fault a record stands for, with the state at the raise (60_exceptions R650, R651). -/
def FaultRecord.toFault (r : FaultRecord) (s : State) : Fault :=
  match r with
  | .illegalOpcode op addr => .illegalOpcode op addr s
  | .unmodelledRenderingAccess reg dir scanline dot => .unmodelledRenderingAccess reg dir scanline dot s
  | .ppuAddressOutOfRange a => .ppuAddressOutOfRange a s

/-- The codes of the closed set (60_exceptions R650). -/
def FaultRecord.code : FaultRecord → Nat
  | .illegalOpcode _ _ => 1
  | .unmodelledRenderingAccess _ _ _ _ => 2
  | .ppuAddressOutOfRange _ => 3

/-- A piece of work as an outcome of the machine. -/
def outcome (m : M Unit) (s : State) : Host.Outcome State Fault Refusal :=
  match m s with
  | .ok _ t => .next t
  | .error r t => .fault (r.toFault t)

/-- The draw POWER_ON (00_scope R9; 70_reset_and_hazards R701), as the contents in order; what a list leaves out is 0. -/
structure PowerOn where
  ram        : List Byte
  vram       : List Byte
  pal        : List (BitVec 6)
  oam        : List Byte
  readBuffer : Byte
  ioLatch    : Byte
  busLatch   : Byte
  deriving DecidableEq, Repr

/-- The PPU part of a POWER_ON draw. -/
def PowerOn.ppuDraw (d : PowerOn) : PpuDraw :=
  { vram := Memory.ofList Config.vramSize d.vram
    pal := Memory.ofList Config.palSize d.pal
    oam := oamOf fun i => d.oam.getD i 0x00
    readBuffer := d.readBuffer }

/-- A cartridge the block is built with, as its board (00_scope R21). -/
def boardOf (c : CartImage) (mode : OpenBusMode) : Board :=
  let sz : PrgSize := if c.prg.length = PrgSize.k16.bytes then .k16 else .k32
  { prg := Memory.ofList sz.bytes c.prg
    prgSize := sz
    chr := Memory.ofList Config.chrSize c.chr
    mirroring := match c.mirroring with
      | .vertical => .vertical
      | _ => .horizontal
    openBus := mode }

/-- The block in power-on state, before its reset sequence (70_reset_and_hazards R701). -/
def powerOnState (b : Board) (d : PowerOn) : State :=
  { State.reset with
    board := b
    ram := Memory.ofList Config.ramSize d.ram
    busLatch := d.busLatch
    ppu := { State.reset.ppu with ioLatch := d.ioLatch } }

/-- Construction at power-on: a cartridge 00_scope R22 does not allow is refused by name, otherwise the block is built and
its reset sequence runs at once (60_exceptions R680, 70_reset_and_hazards R701). -/
def construct (c : CartImage) (mode : OpenBusMode) (d : PowerOn) : Host.Outcome State Fault Refusal :=
  if c.prg.length ≠ PrgSize.k16.bytes ∧ c.prg.length ≠ PrgSize.k32.bytes then .refused (.prgLength c.prg.length)
  else if c.chr.length ≠ Config.chrSize then .refused (.chrLength c.chr.length)
  else match c.mirroring with
    | .horizontal | .vertical => outcome (resetSequence d.ppuDraw) (powerOnState (boardOf c mode) d)
    | k => .refused (.mirroringKind k)

/-- The host asks for a reset between steps; the request is not accepted while a fault is set (60_exceptions R680,
10_state R68). -/
def State.requestReset (s : State) : State :=
  match s.fault with
  | some _ => s
  | none => { s with inputs := { s.inputs with resetReq := true } }

/-- The host sets the button levels between steps (60_exceptions R680). -/
def State.setButtons (b : Buttons) (s : State) : State := { s with inputs := { s.inputs with buttons := b } }

/-- The output `frame_ready` in the cycle that has just ended (60_exceptions R604). -/
def State.frameReady (s : State) : Bool := s.framePulses.contains s.cycles

end Sys2Proof.Machine
end

