-- ==== Sys2Proof/Machine/Operands.lean ====
section
/-! DEFINITION. Every addressing mode's bus sequence and the three operation classes (30_encoding R203 to R215). The
instruction's bytes have been fetched when a sequence here begins (30_encoding R225), except JSR's last (44_control R372). -/

namespace Sys2Proof.Machine

/-- `base + zext_16(idx) (mod 2^16)` (30_encoding R208). -/
def indexedAddr (base : Word) (idx : Byte) : Word := base + zext16 idx

/-- `wrong`, the indexed address before the high-byte carry (30_encoding R208). -/
def wrongAddr (hi lo idx : Byte) : Word := cat16 hi (lo + idx)

/-- `crossed`: the indexed address lies in another page (30_encoding R208, R215). -/
def crossesPage (hi lo idx : Byte) : Bool := decide (page (indexedAddr (cat16 hi lo) idx) ≠ hi)

/-- Zero page (30_encoding R205). -/
def addrZp (a8 : Byte) : M Word := pure (zext16 a8)

/-- Zero page indexed: the dummy read of the unindexed address, then the sum wraps inside page zero (30_encoding R206). -/
def addrZpIdx (idx : Cpu → Byte) (a8 : Byte) : M Word := do
  dummy (zext16 a8)
  let r ← getCpu
  return zext16 (a8 + idx r)

/-- Zero page,X (30_encoding R206). -/
def addrZpX : Byte → M Word := addrZpIdx Cpu.x

/-- Zero page,Y (30_encoding R207). -/
def addrZpY : Byte → M Word := addrZpIdx Cpu.y

/-- Absolute (30_encoding R212). -/
def addrAbs (lo8 hi8 : Byte) : M Word := pure (cat16 hi8 lo8)

/-- An indexed 16-bit address of the read class: the dummy read at `wrong` only when a page is crossed (R208, R211). -/
def addrIndexedRead (lo hi idx : Byte) : M Word :=
  if crossesPage hi lo idx then do
    dummy (wrongAddr hi lo idx)
    return indexedAddr (cat16 hi lo) idx
  else pure (indexedAddr (cat16 hi lo) idx)

/-- An indexed 16-bit address of the write and read-modify-write classes: the dummy read always (R208, R211). -/
def addrIndexedFull (lo hi idx : Byte) : M Word := do
  dummy (wrongAddr hi lo idx)
  return indexedAddr (cat16 hi lo) idx

/-- Absolute,X, read class (30_encoding R208). -/
def addrAbsXRead (lo8 hi8 : Byte) : M Word := do
  let r ← getCpu
  addrIndexedRead lo8 hi8 r.x

/-- Absolute,X, write and read-modify-write classes (30_encoding R208). -/
def addrAbsXFull (lo8 hi8 : Byte) : M Word := do
  let r ← getCpu
  addrIndexedFull lo8 hi8 r.x

/-- Absolute,Y, read class (30_encoding R209). -/
def addrAbsYRead (lo8 hi8 : Byte) : M Word := do
  let r ← getCpu
  addrIndexedRead lo8 hi8 r.y

/-- Absolute,Y, write class (30_encoding R209). -/
def addrAbsYFull (lo8 hi8 : Byte) : M Word := do
  let r ← getCpu
  addrIndexedFull lo8 hi8 r.y

/-- (zp,X): the pointer wraps inside page zero (30_encoding R210). -/
def addrIndX (p8 : Byte) : M Word := do
  dummy (zext16 p8)
  let r ← getCpu
  let lo ← memRead (zext16 (p8 + r.x))
  let hi ← memRead (zext16 (p8 + r.x + 1#8))
  return cat16 hi lo

/-- (zp),Y, read class (30_encoding R211). -/
def addrIndYRead (p8 : Byte) : M Word := do
  let lo ← memRead (zext16 p8)
  let hi ← memRead (zext16 (p8 + 1#8))
  let r ← getCpu
  addrIndexedRead lo hi r.y

/-- (zp),Y, write class (30_encoding R211). -/
def addrIndYFull (p8 : Byte) : M Word := do
  let lo ← memRead (zext16 p8)
  let hi ← memRead (zext16 (p8 + 1#8))
  let r ← getCpu
  addrIndexedFull lo hi r.y

/-- Implied mode: `Dummy(PC)`, then the operation acts on registers only (30_encoding R203). -/
def implied (f : Cpu → Cpu) : M Unit := do
  dummyPc
  modifyCpu f

/-- Immediate mode: the operand was fetched with the instruction (30_encoding R204). -/
def immediate (f : Byte → Cpu → Cpu) (imm8 : Byte) : M Unit := modifyCpu (f imm8)

/-- The read class: the address sequence, the operand read, the operation (30_encoding R214). -/
def readClass (f : Byte → Cpu → Cpu) (addr : M Word) : M Unit := do
  let ea ← addr
  let m ← memRead ea
  modifyCpu (f m)

/-- The write class: the address sequence, then the register value stored (30_encoding R214). -/
def writeClass (r : Cpu → Byte) (addr : M Word) : M Unit := do
  let ea ← addr
  let q ← getCpu
  memWrite ea (r q)

/-- The read-modify-write class: the operand read, written back unmodified, then `f(m)` written; the flags change after
the final write (30_encoding R214; 43_incdec_shift R350; log entry 14). -/
def rmwClass (f : RmwFun) (addr : M Word) : M Unit := do
  let ea ← addr
  let m ← memRead ea
  memWrite ea m
  let q ← getCpu
  memWrite ea (f q.p m).1
  modifyCpu fun r => { r with p := (f r.p m).2 }

/-- A read-modify-write function in accumulator mode: `A <- f(A)` (30_encoding R203). -/
def accumulator (f : RmwFun) : M Unit :=
  implied fun r => { r with a := (f r.p r.a).1, p := (f r.p r.a).2 }

/-- Cycle 4 of a taken branch: the dummy read on the old page when the target lies on another (30_encoding R213). -/
def branchFixPage (next target : Word) : M Unit :=
  if page target = page next then pure () else dummy (cat16 (page next) (lowByte target))

/-- A taken branch from `next` to `target` (30_encoding R213). -/
def takeBranch (next target : Word) : M Unit := do
  dummy next
  branchFixPage next target
  setPc target

/-- A conditional branch; PC holds `next` (30_encoding R213). -/
def branch (taken : Flags → Bool) (off8 : Byte) : M Unit := do
  let r ← getCpu
  if taken r.p then takeBranch r.pc (r.pc + sext16 off8) else pure ()

end Sys2Proof.Machine
end

