-- ==== Sys2Proof/Machine/ArithLogic.lean ====
section
/-! DEFINITION. Arithmetic, logic, compare and bit test (42_arith_logic R330 to R339). One meaning per opcode, over the
mode sequences and operation classes of Machine/Operands.lean. -/

namespace Sys2Proof.Machine

/-- ADC, immediate (R330, R204). -/
def execAdcImm (imm8 : Byte) (s : State) : Host.Outcome State Fault Refusal :=
  outcome (immediate Cpu.adc imm8) s

/-- ADC, zero page (R330, R205). -/
def execAdcZp (a8 : Byte) (s : State) : Host.Outcome State Fault Refusal :=
  outcome (readClass Cpu.adc (addrZp a8)) s

/-- ADC, zero page,X (R330, R206). -/
def execAdcZpX (a8 : Byte) (s : State) : Host.Outcome State Fault Refusal :=
  outcome (readClass Cpu.adc (addrZpX a8)) s

/-- ADC, absolute (R330, R212). -/
def execAdcAbs (lo8 hi8 : Byte) (s : State) : Host.Outcome State Fault Refusal :=
  outcome (readClass Cpu.adc (addrAbs lo8 hi8)) s

/-- ADC, absolute,X (R330, R208). -/
def execAdcAbsX (lo8 hi8 : Byte) (s : State) : Host.Outcome State Fault Refusal :=
  outcome (readClass Cpu.adc (addrAbsXRead lo8 hi8)) s

/-- ADC, absolute,Y (R330, R209). -/
def execAdcAbsY (lo8 hi8 : Byte) (s : State) : Host.Outcome State Fault Refusal :=
  outcome (readClass Cpu.adc (addrAbsYRead lo8 hi8)) s

/-- ADC, (zp,X) (R330, R210). -/
def execAdcIndX (p8 : Byte) (s : State) : Host.Outcome State Fault Refusal :=
  outcome (readClass Cpu.adc (addrIndX p8)) s

/-- ADC, (zp),Y (R330, R211). -/
def execAdcIndY (p8 : Byte) (s : State) : Host.Outcome State Fault Refusal :=
  outcome (readClass Cpu.adc (addrIndYRead p8)) s

/-- SBC, immediate (R331, R204). -/
def execSbcImm (imm8 : Byte) (s : State) : Host.Outcome State Fault Refusal :=
  outcome (immediate Cpu.sbc imm8) s

/-- SBC, zero page (R331, R205). -/
def execSbcZp (a8 : Byte) (s : State) : Host.Outcome State Fault Refusal :=
  outcome (readClass Cpu.sbc (addrZp a8)) s

/-- SBC, zero page,X (R331, R206). -/
def execSbcZpX (a8 : Byte) (s : State) : Host.Outcome State Fault Refusal :=
  outcome (readClass Cpu.sbc (addrZpX a8)) s

/-- SBC, absolute (R331, R212). -/
def execSbcAbs (lo8 hi8 : Byte) (s : State) : Host.Outcome State Fault Refusal :=
  outcome (readClass Cpu.sbc (addrAbs lo8 hi8)) s

/-- SBC, absolute,X (R331, R208). -/
def execSbcAbsX (lo8 hi8 : Byte) (s : State) : Host.Outcome State Fault Refusal :=
  outcome (readClass Cpu.sbc (addrAbsXRead lo8 hi8)) s

/-- SBC, absolute,Y (R331, R209). -/
def execSbcAbsY (lo8 hi8 : Byte) (s : State) : Host.Outcome State Fault Refusal :=
  outcome (readClass Cpu.sbc (addrAbsYRead lo8 hi8)) s

/-- SBC, (zp,X) (R331, R210). -/
def execSbcIndX (p8 : Byte) (s : State) : Host.Outcome State Fault Refusal :=
  outcome (readClass Cpu.sbc (addrIndX p8)) s

/-- SBC, (zp),Y (R331, R211). -/
def execSbcIndY (p8 : Byte) (s : State) : Host.Outcome State Fault Refusal :=
  outcome (readClass Cpu.sbc (addrIndYRead p8)) s

/-- AND, immediate (R332, R204). -/
def execAndImm (imm8 : Byte) (s : State) : Host.Outcome State Fault Refusal :=
  outcome (immediate Cpu.and imm8) s

/-- AND, zero page (R332, R205). -/
def execAndZp (a8 : Byte) (s : State) : Host.Outcome State Fault Refusal :=
  outcome (readClass Cpu.and (addrZp a8)) s

/-- AND, zero page,X (R332, R206). -/
def execAndZpX (a8 : Byte) (s : State) : Host.Outcome State Fault Refusal :=
  outcome (readClass Cpu.and (addrZpX a8)) s

/-- AND, absolute (R332, R212). -/
def execAndAbs (lo8 hi8 : Byte) (s : State) : Host.Outcome State Fault Refusal :=
  outcome (readClass Cpu.and (addrAbs lo8 hi8)) s

/-- AND, absolute,X (R332, R208). -/
def execAndAbsX (lo8 hi8 : Byte) (s : State) : Host.Outcome State Fault Refusal :=
  outcome (readClass Cpu.and (addrAbsXRead lo8 hi8)) s

/-- AND, absolute,Y (R332, R209). -/
def execAndAbsY (lo8 hi8 : Byte) (s : State) : Host.Outcome State Fault Refusal :=
  outcome (readClass Cpu.and (addrAbsYRead lo8 hi8)) s

/-- AND, (zp,X) (R332, R210). -/
def execAndIndX (p8 : Byte) (s : State) : Host.Outcome State Fault Refusal :=
  outcome (readClass Cpu.and (addrIndX p8)) s

/-- AND, (zp),Y (R332, R211). -/
def execAndIndY (p8 : Byte) (s : State) : Host.Outcome State Fault Refusal :=
  outcome (readClass Cpu.and (addrIndYRead p8)) s

/-- ORA, immediate (R333, R204). -/
def execOraImm (imm8 : Byte) (s : State) : Host.Outcome State Fault Refusal :=
  outcome (immediate Cpu.ora imm8) s

/-- ORA, zero page (R333, R205). -/
def execOraZp (a8 : Byte) (s : State) : Host.Outcome State Fault Refusal :=
  outcome (readClass Cpu.ora (addrZp a8)) s

/-- ORA, zero page,X (R333, R206). -/
def execOraZpX (a8 : Byte) (s : State) : Host.Outcome State Fault Refusal :=
  outcome (readClass Cpu.ora (addrZpX a8)) s

/-- ORA, absolute (R333, R212). -/
def execOraAbs (lo8 hi8 : Byte) (s : State) : Host.Outcome State Fault Refusal :=
  outcome (readClass Cpu.ora (addrAbs lo8 hi8)) s

/-- ORA, absolute,X (R333, R208). -/
def execOraAbsX (lo8 hi8 : Byte) (s : State) : Host.Outcome State Fault Refusal :=
  outcome (readClass Cpu.ora (addrAbsXRead lo8 hi8)) s

/-- ORA, absolute,Y (R333, R209). -/
def execOraAbsY (lo8 hi8 : Byte) (s : State) : Host.Outcome State Fault Refusal :=
  outcome (readClass Cpu.ora (addrAbsYRead lo8 hi8)) s

/-- ORA, (zp,X) (R333, R210). -/
def execOraIndX (p8 : Byte) (s : State) : Host.Outcome State Fault Refusal :=
  outcome (readClass Cpu.ora (addrIndX p8)) s

/-- ORA, (zp),Y (R333, R211). -/
def execOraIndY (p8 : Byte) (s : State) : Host.Outcome State Fault Refusal :=
  outcome (readClass Cpu.ora (addrIndYRead p8)) s

/-- EOR, immediate (R334, R204). -/
def execEorImm (imm8 : Byte) (s : State) : Host.Outcome State Fault Refusal :=
  outcome (immediate Cpu.eor imm8) s

/-- EOR, zero page (R334, R205). -/
def execEorZp (a8 : Byte) (s : State) : Host.Outcome State Fault Refusal :=
  outcome (readClass Cpu.eor (addrZp a8)) s

/-- EOR, zero page,X (R334, R206). -/
def execEorZpX (a8 : Byte) (s : State) : Host.Outcome State Fault Refusal :=
  outcome (readClass Cpu.eor (addrZpX a8)) s

/-- EOR, absolute (R334, R212). -/
def execEorAbs (lo8 hi8 : Byte) (s : State) : Host.Outcome State Fault Refusal :=
  outcome (readClass Cpu.eor (addrAbs lo8 hi8)) s

/-- EOR, absolute,X (R334, R208). -/
def execEorAbsX (lo8 hi8 : Byte) (s : State) : Host.Outcome State Fault Refusal :=
  outcome (readClass Cpu.eor (addrAbsXRead lo8 hi8)) s

/-- EOR, absolute,Y (R334, R209). -/
def execEorAbsY (lo8 hi8 : Byte) (s : State) : Host.Outcome State Fault Refusal :=
  outcome (readClass Cpu.eor (addrAbsYRead lo8 hi8)) s

/-- EOR, (zp,X) (R334, R210). -/
def execEorIndX (p8 : Byte) (s : State) : Host.Outcome State Fault Refusal :=
  outcome (readClass Cpu.eor (addrIndX p8)) s

/-- EOR, (zp),Y (R334, R211). -/
def execEorIndY (p8 : Byte) (s : State) : Host.Outcome State Fault Refusal :=
  outcome (readClass Cpu.eor (addrIndYRead p8)) s

/-- BIT, zero page (R335, R205). -/
def execBitZp (a8 : Byte) (s : State) : Host.Outcome State Fault Refusal :=
  outcome (readClass Cpu.bit (addrZp a8)) s

/-- BIT, absolute (R335, R212). -/
def execBitAbs (lo8 hi8 : Byte) (s : State) : Host.Outcome State Fault Refusal :=
  outcome (readClass Cpu.bit (addrAbs lo8 hi8)) s

/-- CMP, immediate (R336, R204). -/
def execCmpImm (imm8 : Byte) (s : State) : Host.Outcome State Fault Refusal :=
  outcome (immediate Cpu.cmp imm8) s

/-- CMP, zero page (R336, R205). -/
def execCmpZp (a8 : Byte) (s : State) : Host.Outcome State Fault Refusal :=
  outcome (readClass Cpu.cmp (addrZp a8)) s

/-- CMP, zero page,X (R336, R206). -/
def execCmpZpX (a8 : Byte) (s : State) : Host.Outcome State Fault Refusal :=
  outcome (readClass Cpu.cmp (addrZpX a8)) s

/-- CMP, absolute (R336, R212). -/
def execCmpAbs (lo8 hi8 : Byte) (s : State) : Host.Outcome State Fault Refusal :=
  outcome (readClass Cpu.cmp (addrAbs lo8 hi8)) s

/-- CMP, absolute,X (R336, R208). -/
def execCmpAbsX (lo8 hi8 : Byte) (s : State) : Host.Outcome State Fault Refusal :=
  outcome (readClass Cpu.cmp (addrAbsXRead lo8 hi8)) s

/-- CMP, absolute,Y (R336, R209). -/
def execCmpAbsY (lo8 hi8 : Byte) (s : State) : Host.Outcome State Fault Refusal :=
  outcome (readClass Cpu.cmp (addrAbsYRead lo8 hi8)) s

/-- CMP, (zp,X) (R336, R210). -/
def execCmpIndX (p8 : Byte) (s : State) : Host.Outcome State Fault Refusal :=
  outcome (readClass Cpu.cmp (addrIndX p8)) s

/-- CMP, (zp),Y (R336, R211). -/
def execCmpIndY (p8 : Byte) (s : State) : Host.Outcome State Fault Refusal :=
  outcome (readClass Cpu.cmp (addrIndYRead p8)) s

/-- CPX, immediate (R337, R204). -/
def execCpxImm (imm8 : Byte) (s : State) : Host.Outcome State Fault Refusal :=
  outcome (immediate Cpu.cpx imm8) s

/-- CPX, zero page (R337, R205). -/
def execCpxZp (a8 : Byte) (s : State) : Host.Outcome State Fault Refusal :=
  outcome (readClass Cpu.cpx (addrZp a8)) s

/-- CPX, absolute (R337, R212). -/
def execCpxAbs (lo8 hi8 : Byte) (s : State) : Host.Outcome State Fault Refusal :=
  outcome (readClass Cpu.cpx (addrAbs lo8 hi8)) s

/-- CPY, immediate (R338, R204). -/
def execCpyImm (imm8 : Byte) (s : State) : Host.Outcome State Fault Refusal :=
  outcome (immediate Cpu.cpy imm8) s

/-- CPY, zero page (R338, R205). -/
def execCpyZp (a8 : Byte) (s : State) : Host.Outcome State Fault Refusal :=
  outcome (readClass Cpu.cpy (addrZp a8)) s

/-- CPY, absolute (R338, R212). -/
def execCpyAbs (lo8 hi8 : Byte) (s : State) : Host.Outcome State Fault Refusal :=
  outcome (readClass Cpu.cpy (addrAbs lo8 hi8)) s

end Sys2Proof.Machine
end

