-- ==== Sys2Proof/Machine/Control.lean ====
section
/-! DEFINITION. Control transfer, the software interrupt, its return, and NOP (44_control R370 to R384). One meaning per opcode, over the
mode sequences and operation classes of Machine/Operands.lean. -/

namespace Sys2Proof.Machine

/-- JMP, absolute (R370): PC becomes the operand address. -/
def execJmpAbs (lo8 hi8 : Byte) (s : State) : Host.Outcome State Fault Refusal :=
  outcome (setPc (cat16 hi8 lo8)) s

/-- JMP, indirect (R370, R371): the pointer's high byte is not incremented (R371). -/
def execJmpInd (lo8 hi8 : Byte) (s : State) : Host.Outcome State Fault Refusal :=
  outcome (do
    let lo ← memRead (cat16 hi8 lo8)
    let hi ← memRead (cat16 hi8 (lo8 + 1#8))
    setPc (cat16 hi lo)) s

/-- JSR, absolute (R372): cycles 3 to 6. The high byte of the target is what cycle 6 reads at PC, so the syntax's `hi8` is not used (log entry 13). -/
def execJsr (lo8 _hi8 : Byte) (s : State) : Host.Outcome State Fault Refusal :=
  outcome (do
    dummyStack
    let r ← getCpu
    push (page r.pc)
    push (lowByte r.pc)
    let hi ← memRead r.pc
    setPc (cat16 hi lo8)) s

/-- RTS, implied (R373): cycles 2 to 6. -/
def execRts (s : State) : Host.Outcome State Fault Refusal :=
  outcome (do
    dummyPc
    dummyStack
    let lo ← pull
    let hi ← pull
    dummy (cat16 hi lo)
    setPc (cat16 hi lo + 1#16)) s

/-- BCC, relative (R374, R213). -/
def execBcc (off8 : Byte) (s : State) : Host.Outcome State Fault Refusal :=
  outcome (branch (fun p => !p.c) off8) s

/-- BCS, relative (R375, R213). -/
def execBcs (off8 : Byte) (s : State) : Host.Outcome State Fault Refusal :=
  outcome (branch (fun p => p.c) off8) s

/-- BEQ, relative (R376, R213). -/
def execBeq (off8 : Byte) (s : State) : Host.Outcome State Fault Refusal :=
  outcome (branch (fun p => p.z) off8) s

/-- BNE, relative (R377, R213). -/
def execBne (off8 : Byte) (s : State) : Host.Outcome State Fault Refusal :=
  outcome (branch (fun p => !p.z) off8) s

/-- BMI, relative (R378, R213). -/
def execBmi (off8 : Byte) (s : State) : Host.Outcome State Fault Refusal :=
  outcome (branch (fun p => p.n) off8) s

/-- BPL, relative (R379, R213). -/
def execBpl (off8 : Byte) (s : State) : Host.Outcome State Fault Refusal :=
  outcome (branch (fun p => !p.n) off8) s

/-- BVC, relative (R380, R213). -/
def execBvc (off8 : Byte) (s : State) : Host.Outcome State Fault Refusal :=
  outcome (branch (fun p => !p.v) off8) s

/-- BVS, relative (R381, R213). -/
def execBvs (off8 : Byte) (s : State) : Host.Outcome State Fault Refusal :=
  outcome (branch (fun p => p.v) off8) s

/-- BRK, implied (R382): cycles 3 to 7. The padding byte has been fetched and is ignored. -/
def execBrk (_padding : Byte) (s : State) : Host.Outcome State Fault Refusal :=
  outcome (takeException true irqVector) s

/-- RTI, implied (R383): cycles 2 to 6. -/
def execRti (s : State) : Host.Outcome State Fault Refusal :=
  outcome (do
    dummyPc
    dummyStack
    returnFromException) s

/-- NOP, implied (R384, R203). -/
def execNop (s : State) : Host.Outcome State Fault Refusal :=
  outcome (implied id) s

end Sys2Proof.Machine
end

