-- ==== Sys2Proof/Machine/FlagOps.lean ====
section
/-! DEFINITION. The flag instructions (45_flags R390 to R396). One meaning per opcode, over the
mode sequences and operation classes of Machine/Operands.lean. -/

namespace Sys2Proof.Machine

/-- CLC, implied (R390, R203). -/
def execClc (s : State) : Host.Outcome State Fault Refusal :=
  outcome (implied fun r => { r with p := { r.p with c := false } }) s

/-- SEC, implied (R391, R203). -/
def execSec (s : State) : Host.Outcome State Fault Refusal :=
  outcome (implied fun r => { r with p := { r.p with c := true } }) s

/-- CLI, implied (R392, R203). -/
def execCli (s : State) : Host.Outcome State Fault Refusal :=
  outcome (implied fun r => { r with p := { r.p with i := false } }) s

/-- SEI, implied (R393, R203). -/
def execSei (s : State) : Host.Outcome State Fault Refusal :=
  outcome (implied fun r => { r with p := { r.p with i := true } }) s

/-- CLD, implied (R394, R203). -/
def execCld (s : State) : Host.Outcome State Fault Refusal :=
  outcome (implied fun r => { r with p := { r.p with d := false } }) s

/-- SED, implied (R395, R203). -/
def execSed (s : State) : Host.Outcome State Fault Refusal :=
  outcome (implied fun r => { r with p := { r.p with d := true } }) s

/-- CLV, implied (R396, R203). -/
def execClv (s : State) : Host.Outcome State Fault Refusal :=
  outcome (implied fun r => { r with p := { r.p with v := false } }) s

end Sys2Proof.Machine
end

