-- ==== Sys2Proof/Machine/IncDecShift.lean ====
section
/-! DEFINITION. Increment, decrement, shift and rotate (43_incdec_shift R350 to R359). One meaning per opcode, over the
mode sequences and operation classes of Machine/Operands.lean. -/

namespace Sys2Proof.Machine

/-- INC, zero page (R350, R205). -/
def execIncZp (a8 : Byte) (s : State) : Host.Outcome State Fault Refusal :=
  outcome (rmwClass incFun (addrZp a8)) s

/-- INC, zero page,X (R350, R206). -/
def execIncZpX (a8 : Byte) (s : State) : Host.Outcome State Fault Refusal :=
  outcome (rmwClass incFun (addrZpX a8)) s

/-- INC, absolute (R350, R212). -/
def execIncAbs (lo8 hi8 : Byte) (s : State) : Host.Outcome State Fault Refusal :=
  outcome (rmwClass incFun (addrAbs lo8 hi8)) s

/-- INC, absolute,X (R350, R208). -/
def execIncAbsX (lo8 hi8 : Byte) (s : State) : Host.Outcome State Fault Refusal :=
  outcome (rmwClass incFun (addrAbsXFull lo8 hi8)) s

/-- DEC, zero page (R351, R205). -/
def execDecZp (a8 : Byte) (s : State) : Host.Outcome State Fault Refusal :=
  outcome (rmwClass decFun (addrZp a8)) s

/-- DEC, zero page,X (R351, R206). -/
def execDecZpX (a8 : Byte) (s : State) : Host.Outcome State Fault Refusal :=
  outcome (rmwClass decFun (addrZpX a8)) s

/-- DEC, absolute (R351, R212). -/
def execDecAbs (lo8 hi8 : Byte) (s : State) : Host.Outcome State Fault Refusal :=
  outcome (rmwClass decFun (addrAbs lo8 hi8)) s

/-- DEC, absolute,X (R351, R208). -/
def execDecAbsX (lo8 hi8 : Byte) (s : State) : Host.Outcome State Fault Refusal :=
  outcome (rmwClass decFun (addrAbsXFull lo8 hi8)) s

/-- INX, implied (R352, R203). -/
def execInx (s : State) : Host.Outcome State Fault Refusal :=
  outcome (implied fun r => r.loadX (r.x + 1#8)) s

/-- INY, implied (R353, R203). -/
def execIny (s : State) : Host.Outcome State Fault Refusal :=
  outcome (implied fun r => r.loadY (r.y + 1#8)) s

/-- DEX, implied (R354, R203). -/
def execDex (s : State) : Host.Outcome State Fault Refusal :=
  outcome (implied fun r => r.loadX (r.x - 1#8)) s

/-- DEY, implied (R355, R203). -/
def execDey (s : State) : Host.Outcome State Fault Refusal :=
  outcome (implied fun r => r.loadY (r.y - 1#8)) s

/-- ASL, accumulator (R356, R203). -/
def execAslAcc (s : State) : Host.Outcome State Fault Refusal :=
  outcome (accumulator aslFun) s

/-- ASL, zero page (R356, R205). -/
def execAslZp (a8 : Byte) (s : State) : Host.Outcome State Fault Refusal :=
  outcome (rmwClass aslFun (addrZp a8)) s

/-- ASL, zero page,X (R356, R206). -/
def execAslZpX (a8 : Byte) (s : State) : Host.Outcome State Fault Refusal :=
  outcome (rmwClass aslFun (addrZpX a8)) s

/-- ASL, absolute (R356, R212). -/
def execAslAbs (lo8 hi8 : Byte) (s : State) : Host.Outcome State Fault Refusal :=
  outcome (rmwClass aslFun (addrAbs lo8 hi8)) s

/-- ASL, absolute,X (R356, R208). -/
def execAslAbsX (lo8 hi8 : Byte) (s : State) : Host.Outcome State Fault Refusal :=
  outcome (rmwClass aslFun (addrAbsXFull lo8 hi8)) s

/-- LSR, accumulator (R357, R203). -/
def execLsrAcc (s : State) : Host.Outcome State Fault Refusal :=
  outcome (accumulator lsrFun) s

/-- LSR, zero page (R357, R205). -/
def execLsrZp (a8 : Byte) (s : State) : Host.Outcome State Fault Refusal :=
  outcome (rmwClass lsrFun (addrZp a8)) s

/-- LSR, zero page,X (R357, R206). -/
def execLsrZpX (a8 : Byte) (s : State) : Host.Outcome State Fault Refusal :=
  outcome (rmwClass lsrFun (addrZpX a8)) s

/-- LSR, absolute (R357, R212). -/
def execLsrAbs (lo8 hi8 : Byte) (s : State) : Host.Outcome State Fault Refusal :=
  outcome (rmwClass lsrFun (addrAbs lo8 hi8)) s

/-- LSR, absolute,X (R357, R208). -/
def execLsrAbsX (lo8 hi8 : Byte) (s : State) : Host.Outcome State Fault Refusal :=
  outcome (rmwClass lsrFun (addrAbsXFull lo8 hi8)) s

/-- ROL, accumulator (R358, R203). -/
def execRolAcc (s : State) : Host.Outcome State Fault Refusal :=
  outcome (accumulator rolFun) s

/-- ROL, zero page (R358, R205). -/
def execRolZp (a8 : Byte) (s : State) : Host.Outcome State Fault Refusal :=
  outcome (rmwClass rolFun (addrZp a8)) s

/-- ROL, zero page,X (R358, R206). -/
def execRolZpX (a8 : Byte) (s : State) : Host.Outcome State Fault Refusal :=
  outcome (rmwClass rolFun (addrZpX a8)) s

/-- ROL, absolute (R358, R212). -/
def execRolAbs (lo8 hi8 : Byte) (s : State) : Host.Outcome State Fault Refusal :=
  outcome (rmwClass rolFun (addrAbs lo8 hi8)) s

/-- ROL, absolute,X (R358, R208). -/
def execRolAbsX (lo8 hi8 : Byte) (s : State) : Host.Outcome State Fault Refusal :=
  outcome (rmwClass rolFun (addrAbsXFull lo8 hi8)) s

/-- ROR, accumulator (R359, R203). -/
def execRorAcc (s : State) : Host.Outcome State Fault Refusal :=
  outcome (accumulator rorFun) s

/-- ROR, zero page (R359, R205). -/
def execRorZp (a8 : Byte) (s : State) : Host.Outcome State Fault Refusal :=
  outcome (rmwClass rorFun (addrZp a8)) s

/-- ROR, zero page,X (R359, R206). -/
def execRorZpX (a8 : Byte) (s : State) : Host.Outcome State Fault Refusal :=
  outcome (rmwClass rorFun (addrZpX a8)) s

/-- ROR, absolute (R359, R212). -/
def execRorAbs (lo8 hi8 : Byte) (s : State) : Host.Outcome State Fault Refusal :=
  outcome (rmwClass rorFun (addrAbs lo8 hi8)) s

/-- ROR, absolute,X (R359, R208). -/
def execRorAbsX (lo8 hi8 : Byte) (s : State) : Host.Outcome State Fault Refusal :=
  outcome (rmwClass rorFun (addrAbsXFull lo8 hi8)) s

end Sys2Proof.Machine
end

