-- ==== Sys2Proof/Machine/LoadStoreTransfer.lean ====
section
/-! DEFINITION. Loads, stores and register transfers (40_load_store_transfer R300 to R311). One meaning per opcode, over the
mode sequences and operation classes of Machine/Operands.lean. -/

namespace Sys2Proof.Machine

/-- LDA, immediate (R300, R204). -/
def execLdaImm (imm8 : Byte) (s : State) : Host.Outcome State Fault Refusal :=
  outcome (immediate Cpu.loadA imm8) s

/-- LDA, zero page (R300, R205). -/
def execLdaZp (a8 : Byte) (s : State) : Host.Outcome State Fault Refusal :=
  outcome (readClass Cpu.loadA (addrZp a8)) s

/-- LDA, zero page,X (R300, R206). -/
def execLdaZpX (a8 : Byte) (s : State) : Host.Outcome State Fault Refusal :=
  outcome (readClass Cpu.loadA (addrZpX a8)) s

/-- LDA, absolute (R300, R212). -/
def execLdaAbs (lo8 hi8 : Byte) (s : State) : Host.Outcome State Fault Refusal :=
  outcome (readClass Cpu.loadA (addrAbs lo8 hi8)) s

/-- LDA, absolute,X (R300, R208). -/
def execLdaAbsX (lo8 hi8 : Byte) (s : State) : Host.Outcome State Fault Refusal :=
  outcome (readClass Cpu.loadA (addrAbsXRead lo8 hi8)) s

/-- LDA, absolute,Y (R300, R209). -/
def execLdaAbsY (lo8 hi8 : Byte) (s : State) : Host.Outcome State Fault Refusal :=
  outcome (readClass Cpu.loadA (addrAbsYRead lo8 hi8)) s

/-- LDA, (zp,X) (R300, R210). -/
def execLdaIndX (p8 : Byte) (s : State) : Host.Outcome State Fault Refusal :=
  outcome (readClass Cpu.loadA (addrIndX p8)) s

/-- LDA, (zp),Y (R300, R211). -/
def execLdaIndY (p8 : Byte) (s : State) : Host.Outcome State Fault Refusal :=
  outcome (readClass Cpu.loadA (addrIndYRead p8)) s

/-- LDX, immediate (R301, R204). -/
def execLdxImm (imm8 : Byte) (s : State) : Host.Outcome State Fault Refusal :=
  outcome (immediate Cpu.loadX imm8) s

/-- LDX, zero page (R301, R205). -/
def execLdxZp (a8 : Byte) (s : State) : Host.Outcome State Fault Refusal :=
  outcome (readClass Cpu.loadX (addrZp a8)) s

/-- LDX, zero page,Y (R301, R207). -/
def execLdxZpY (a8 : Byte) (s : State) : Host.Outcome State Fault Refusal :=
  outcome (readClass Cpu.loadX (addrZpY a8)) s

/-- LDX, absolute (R301, R212). -/
def execLdxAbs (lo8 hi8 : Byte) (s : State) : Host.Outcome State Fault Refusal :=
  outcome (readClass Cpu.loadX (addrAbs lo8 hi8)) s

/-- LDX, absolute,Y (R301, R209). -/
def execLdxAbsY (lo8 hi8 : Byte) (s : State) : Host.Outcome State Fault Refusal :=
  outcome (readClass Cpu.loadX (addrAbsYRead lo8 hi8)) s

/-- LDY, immediate (R302, R204). -/
def execLdyImm (imm8 : Byte) (s : State) : Host.Outcome State Fault Refusal :=
  outcome (immediate Cpu.loadY imm8) s

/-- LDY, zero page (R302, R205). -/
def execLdyZp (a8 : Byte) (s : State) : Host.Outcome State Fault Refusal :=
  outcome (readClass Cpu.loadY (addrZp a8)) s

/-- LDY, zero page,X (R302, R206). -/
def execLdyZpX (a8 : Byte) (s : State) : Host.Outcome State Fault Refusal :=
  outcome (readClass Cpu.loadY (addrZpX a8)) s

/-- LDY, absolute (R302, R212). -/
def execLdyAbs (lo8 hi8 : Byte) (s : State) : Host.Outcome State Fault Refusal :=
  outcome (readClass Cpu.loadY (addrAbs lo8 hi8)) s

/-- LDY, absolute,X (R302, R208). -/
def execLdyAbsX (lo8 hi8 : Byte) (s : State) : Host.Outcome State Fault Refusal :=
  outcome (readClass Cpu.loadY (addrAbsXRead lo8 hi8)) s

/-- STA, zero page (R303, R205). -/
def execStaZp (a8 : Byte) (s : State) : Host.Outcome State Fault Refusal :=
  outcome (writeClass Cpu.a (addrZp a8)) s

/-- STA, zero page,X (R303, R206). -/
def execStaZpX (a8 : Byte) (s : State) : Host.Outcome State Fault Refusal :=
  outcome (writeClass Cpu.a (addrZpX a8)) s

/-- STA, absolute (R303, R212). -/
def execStaAbs (lo8 hi8 : Byte) (s : State) : Host.Outcome State Fault Refusal :=
  outcome (writeClass Cpu.a (addrAbs lo8 hi8)) s

/-- STA, absolute,X (R303, R208). -/
def execStaAbsX (lo8 hi8 : Byte) (s : State) : Host.Outcome State Fault Refusal :=
  outcome (writeClass Cpu.a (addrAbsXFull lo8 hi8)) s

/-- STA, absolute,Y (R303, R209). -/
def execStaAbsY (lo8 hi8 : Byte) (s : State) : Host.Outcome State Fault Refusal :=
  outcome (writeClass Cpu.a (addrAbsYFull lo8 hi8)) s

/-- STA, (zp,X) (R303, R210). -/
def execStaIndX (p8 : Byte) (s : State) : Host.Outcome State Fault Refusal :=
  outcome (writeClass Cpu.a (addrIndX p8)) s

/-- STA, (zp),Y (R303, R211). -/
def execStaIndY (p8 : Byte) (s : State) : Host.Outcome State Fault Refusal :=
  outcome (writeClass Cpu.a (addrIndYFull p8)) s

/-- STX, zero page (R304, R205). -/
def execStxZp (a8 : Byte) (s : State) : Host.Outcome State Fault Refusal :=
  outcome (writeClass Cpu.x (addrZp a8)) s

/-- STX, zero page,Y (R304, R207). -/
def execStxZpY (a8 : Byte) (s : State) : Host.Outcome State Fault Refusal :=
  outcome (writeClass Cpu.x (addrZpY a8)) s

/-- STX, absolute (R304, R212). -/
def execStxAbs (lo8 hi8 : Byte) (s : State) : Host.Outcome State Fault Refusal :=
  outcome (writeClass Cpu.x (addrAbs lo8 hi8)) s

/-- STY, zero page (R305, R205). -/
def execStyZp (a8 : Byte) (s : State) : Host.Outcome State Fault Refusal :=
  outcome (writeClass Cpu.y (addrZp a8)) s

/-- STY, zero page,X (R305, R206). -/
def execStyZpX (a8 : Byte) (s : State) : Host.Outcome State Fault Refusal :=
  outcome (writeClass Cpu.y (addrZpX a8)) s

/-- STY, absolute (R305, R212). -/
def execStyAbs (lo8 hi8 : Byte) (s : State) : Host.Outcome State Fault Refusal :=
  outcome (writeClass Cpu.y (addrAbs lo8 hi8)) s

/-- TAX, implied (R306, R203). -/
def execTax (s : State) : Host.Outcome State Fault Refusal :=
  outcome (implied fun r => r.loadX r.a) s

/-- TAY, implied (R307, R203). -/
def execTay (s : State) : Host.Outcome State Fault Refusal :=
  outcome (implied fun r => r.loadY r.a) s

/-- TXA, implied (R308, R203). -/
def execTxa (s : State) : Host.Outcome State Fault Refusal :=
  outcome (implied fun r => r.loadA r.x) s

/-- TYA, implied (R309, R203). -/
def execTya (s : State) : Host.Outcome State Fault Refusal :=
  outcome (implied fun r => r.loadA r.y) s

/-- TSX, implied (R310, R203). -/
def execTsx (s : State) : Host.Outcome State Fault Refusal :=
  outcome (implied fun r => r.loadX r.s) s

/-- TXS, implied (R311, R203). -/
def execTxs (s : State) : Host.Outcome State Fault Refusal :=
  outcome (implied fun r => { r with s := r.x }) s

end Sys2Proof.Machine
end

