-- ==== Sys2Proof/Machine/Stack.lean ====
section
/-! DEFINITION. The stack instructions (41_stack R320 to R323). One meaning per opcode, over the
mode sequences and operation classes of Machine/Operands.lean. -/

namespace Sys2Proof.Machine

/-- PHA, implied (R320): cycles 2 and 3. -/
def execPha (s : State) : Host.Outcome State Fault Refusal :=
  outcome (do
    dummyPc
    let r ← getCpu
    push r.a) s

/-- PHP, implied (R321): cycles 2 and 3, B pushed as 1. -/
def execPhp (s : State) : Host.Outcome State Fault Refusal :=
  outcome (do
    dummyPc
    let r ← getCpu
    push (pImage r.p true)) s

/-- PLA, implied (R322): cycles 2 to 4. -/
def execPla (s : State) : Host.Outcome State Fault Refusal :=
  outcome (do
    dummyPc
    dummyStack
    let b ← pull
    modifyCpu (Cpu.loadA b)) s

/-- PLP, implied (R323): cycles 2 to 4; bits 5 and 4 of the pulled byte are ignored. -/
def execPlp (s : State) : Host.Outcome State Fault Refusal :=
  outcome (do
    dummyPc
    dummyStack
    let b ← pull
    modifyCpu fun r => { r with p := pulledFlags b }) s

end Sys2Proof.Machine
end

