-- ==== Sys2Proof/Machine/Dispatch.lean ====
section
/-! DEFINITION. The dispatch: one arm per constructor of Instr, each one direct call of its meaning. -/

namespace Sys2Proof.Machine

def exec (i : Instr) (s : State) : Host.Outcome State Fault Refusal :=
  match i with
  -- Loads (40_load_store_transfer)
  | .ldaImm imm8 => Sys2Proof.Machine.execLdaImm imm8 s
  | .ldaZp a8 => Sys2Proof.Machine.execLdaZp a8 s
  | .ldaZpX a8 => Sys2Proof.Machine.execLdaZpX a8 s
  | .ldaAbs lo8 hi8 => Sys2Proof.Machine.execLdaAbs lo8 hi8 s
  | .ldaAbsX lo8 hi8 => Sys2Proof.Machine.execLdaAbsX lo8 hi8 s
  | .ldaAbsY lo8 hi8 => Sys2Proof.Machine.execLdaAbsY lo8 hi8 s
  | .ldaIndX p8 => Sys2Proof.Machine.execLdaIndX p8 s
  | .ldaIndY p8 => Sys2Proof.Machine.execLdaIndY p8 s
  | .ldxImm imm8 => Sys2Proof.Machine.execLdxImm imm8 s
  | .ldxZp a8 => Sys2Proof.Machine.execLdxZp a8 s
  | .ldxZpY a8 => Sys2Proof.Machine.execLdxZpY a8 s
  | .ldxAbs lo8 hi8 => Sys2Proof.Machine.execLdxAbs lo8 hi8 s
  | .ldxAbsY lo8 hi8 => Sys2Proof.Machine.execLdxAbsY lo8 hi8 s
  | .ldyImm imm8 => Sys2Proof.Machine.execLdyImm imm8 s
  | .ldyZp a8 => Sys2Proof.Machine.execLdyZp a8 s
  | .ldyZpX a8 => Sys2Proof.Machine.execLdyZpX a8 s
  | .ldyAbs lo8 hi8 => Sys2Proof.Machine.execLdyAbs lo8 hi8 s
  | .ldyAbsX lo8 hi8 => Sys2Proof.Machine.execLdyAbsX lo8 hi8 s
  -- Stores (40_load_store_transfer)
  | .staZp a8 => Sys2Proof.Machine.execStaZp a8 s
  | .staZpX a8 => Sys2Proof.Machine.execStaZpX a8 s
  | .staAbs lo8 hi8 => Sys2Proof.Machine.execStaAbs lo8 hi8 s
  | .staAbsX lo8 hi8 => Sys2Proof.Machine.execStaAbsX lo8 hi8 s
  | .staAbsY lo8 hi8 => Sys2Proof.Machine.execStaAbsY lo8 hi8 s
  | .staIndX p8 => Sys2Proof.Machine.execStaIndX p8 s
  | .staIndY p8 => Sys2Proof.Machine.execStaIndY p8 s
  | .stxZp a8 => Sys2Proof.Machine.execStxZp a8 s
  | .stxZpY a8 => Sys2Proof.Machine.execStxZpY a8 s
  | .stxAbs lo8 hi8 => Sys2Proof.Machine.execStxAbs lo8 hi8 s
  | .styZp a8 => Sys2Proof.Machine.execStyZp a8 s
  | .styZpX a8 => Sys2Proof.Machine.execStyZpX a8 s
  | .styAbs lo8 hi8 => Sys2Proof.Machine.execStyAbs lo8 hi8 s
  -- Register transfers (40_load_store_transfer)
  | .tax => Sys2Proof.Machine.execTax s
  | .tay => Sys2Proof.Machine.execTay s
  | .txa => Sys2Proof.Machine.execTxa s
  | .tya => Sys2Proof.Machine.execTya s
  | .tsx => Sys2Proof.Machine.execTsx s
  | .txs => Sys2Proof.Machine.execTxs s
  -- Stack (41_stack)
  | .pha => Sys2Proof.Machine.execPha s
  | .php => Sys2Proof.Machine.execPhp s
  | .pla => Sys2Proof.Machine.execPla s
  | .plp => Sys2Proof.Machine.execPlp s
  -- Arithmetic, logic, compare, bit test (42_arith_logic)
  | .adcImm imm8 => Sys2Proof.Machine.execAdcImm imm8 s
  | .adcZp a8 => Sys2Proof.Machine.execAdcZp a8 s
  | .adcZpX a8 => Sys2Proof.Machine.execAdcZpX a8 s
  | .adcAbs lo8 hi8 => Sys2Proof.Machine.execAdcAbs lo8 hi8 s
  | .adcAbsX lo8 hi8 => Sys2Proof.Machine.execAdcAbsX lo8 hi8 s
  | .adcAbsY lo8 hi8 => Sys2Proof.Machine.execAdcAbsY lo8 hi8 s
  | .adcIndX p8 => Sys2Proof.Machine.execAdcIndX p8 s
  | .adcIndY p8 => Sys2Proof.Machine.execAdcIndY p8 s
  | .sbcImm imm8 => Sys2Proof.Machine.execSbcImm imm8 s
  | .sbcZp a8 => Sys2Proof.Machine.execSbcZp a8 s
  | .sbcZpX a8 => Sys2Proof.Machine.execSbcZpX a8 s
  | .sbcAbs lo8 hi8 => Sys2Proof.Machine.execSbcAbs lo8 hi8 s
  | .sbcAbsX lo8 hi8 => Sys2Proof.Machine.execSbcAbsX lo8 hi8 s
  | .sbcAbsY lo8 hi8 => Sys2Proof.Machine.execSbcAbsY lo8 hi8 s
  | .sbcIndX p8 => Sys2Proof.Machine.execSbcIndX p8 s
  | .sbcIndY p8 => Sys2Proof.Machine.execSbcIndY p8 s
  | .andImm imm8 => Sys2Proof.Machine.execAndImm imm8 s
  | .andZp a8 => Sys2Proof.Machine.execAndZp a8 s
  | .andZpX a8 => Sys2Proof.Machine.execAndZpX a8 s
  | .andAbs lo8 hi8 => Sys2Proof.Machine.execAndAbs lo8 hi8 s
  | .andAbsX lo8 hi8 => Sys2Proof.Machine.execAndAbsX lo8 hi8 s
  | .andAbsY lo8 hi8 => Sys2Proof.Machine.execAndAbsY lo8 hi8 s
  | .andIndX p8 => Sys2Proof.Machine.execAndIndX p8 s
  | .andIndY p8 => Sys2Proof.Machine.execAndIndY p8 s
  | .oraImm imm8 => Sys2Proof.Machine.execOraImm imm8 s
  | .oraZp a8 => Sys2Proof.Machine.execOraZp a8 s
  | .oraZpX a8 => Sys2Proof.Machine.execOraZpX a8 s
  | .oraAbs lo8 hi8 => Sys2Proof.Machine.execOraAbs lo8 hi8 s
  | .oraAbsX lo8 hi8 => Sys2Proof.Machine.execOraAbsX lo8 hi8 s
  | .oraAbsY lo8 hi8 => Sys2Proof.Machine.execOraAbsY lo8 hi8 s
  | .oraIndX p8 => Sys2Proof.Machine.execOraIndX p8 s
  | .oraIndY p8 => Sys2Proof.Machine.execOraIndY p8 s
  | .eorImm imm8 => Sys2Proof.Machine.execEorImm imm8 s
  | .eorZp a8 => Sys2Proof.Machine.execEorZp a8 s
  | .eorZpX a8 => Sys2Proof.Machine.execEorZpX a8 s
  | .eorAbs lo8 hi8 => Sys2Proof.Machine.execEorAbs lo8 hi8 s
  | .eorAbsX lo8 hi8 => Sys2Proof.Machine.execEorAbsX lo8 hi8 s
  | .eorAbsY lo8 hi8 => Sys2Proof.Machine.execEorAbsY lo8 hi8 s
  | .eorIndX p8 => Sys2Proof.Machine.execEorIndX p8 s
  | .eorIndY p8 => Sys2Proof.Machine.execEorIndY p8 s
  | .bitZp a8 => Sys2Proof.Machine.execBitZp a8 s
  | .bitAbs lo8 hi8 => Sys2Proof.Machine.execBitAbs lo8 hi8 s
  | .cmpImm imm8 => Sys2Proof.Machine.execCmpImm imm8 s
  | .cmpZp a8 => Sys2Proof.Machine.execCmpZp a8 s
  | .cmpZpX a8 => Sys2Proof.Machine.execCmpZpX a8 s
  | .cmpAbs lo8 hi8 => Sys2Proof.Machine.execCmpAbs lo8 hi8 s
  | .cmpAbsX lo8 hi8 => Sys2Proof.Machine.execCmpAbsX lo8 hi8 s
  | .cmpAbsY lo8 hi8 => Sys2Proof.Machine.execCmpAbsY lo8 hi8 s
  | .cmpIndX p8 => Sys2Proof.Machine.execCmpIndX p8 s
  | .cmpIndY p8 => Sys2Proof.Machine.execCmpIndY p8 s
  | .cpxImm imm8 => Sys2Proof.Machine.execCpxImm imm8 s
  | .cpxZp a8 => Sys2Proof.Machine.execCpxZp a8 s
  | .cpxAbs lo8 hi8 => Sys2Proof.Machine.execCpxAbs lo8 hi8 s
  | .cpyImm imm8 => Sys2Proof.Machine.execCpyImm imm8 s
  | .cpyZp a8 => Sys2Proof.Machine.execCpyZp a8 s
  | .cpyAbs lo8 hi8 => Sys2Proof.Machine.execCpyAbs lo8 hi8 s
  -- Increment, decrement (43_incdec_shift)
  | .incZp a8 => Sys2Proof.Machine.execIncZp a8 s
  | .incZpX a8 => Sys2Proof.Machine.execIncZpX a8 s
  | .incAbs lo8 hi8 => Sys2Proof.Machine.execIncAbs lo8 hi8 s
  | .incAbsX lo8 hi8 => Sys2Proof.Machine.execIncAbsX lo8 hi8 s
  | .decZp a8 => Sys2Proof.Machine.execDecZp a8 s
  | .decZpX a8 => Sys2Proof.Machine.execDecZpX a8 s
  | .decAbs lo8 hi8 => Sys2Proof.Machine.execDecAbs lo8 hi8 s
  | .decAbsX lo8 hi8 => Sys2Proof.Machine.execDecAbsX lo8 hi8 s
  | .inx => Sys2Proof.Machine.execInx s
  | .iny => Sys2Proof.Machine.execIny s
  | .dex => Sys2Proof.Machine.execDex s
  | .dey => Sys2Proof.Machine.execDey s
  -- Shift, rotate (43_incdec_shift)
  | .aslAcc => Sys2Proof.Machine.execAslAcc s
  | .aslZp a8 => Sys2Proof.Machine.execAslZp a8 s
  | .aslZpX a8 => Sys2Proof.Machine.execAslZpX a8 s
  | .aslAbs lo8 hi8 => Sys2Proof.Machine.execAslAbs lo8 hi8 s
  | .aslAbsX lo8 hi8 => Sys2Proof.Machine.execAslAbsX lo8 hi8 s
  | .lsrAcc => Sys2Proof.Machine.execLsrAcc s
  | .lsrZp a8 => Sys2Proof.Machine.execLsrZp a8 s
  | .lsrZpX a8 => Sys2Proof.Machine.execLsrZpX a8 s
  | .lsrAbs lo8 hi8 => Sys2Proof.Machine.execLsrAbs lo8 hi8 s
  | .lsrAbsX lo8 hi8 => Sys2Proof.Machine.execLsrAbsX lo8 hi8 s
  | .rolAcc => Sys2Proof.Machine.execRolAcc s
  | .rolZp a8 => Sys2Proof.Machine.execRolZp a8 s
  | .rolZpX a8 => Sys2Proof.Machine.execRolZpX a8 s
  | .rolAbs lo8 hi8 => Sys2Proof.Machine.execRolAbs lo8 hi8 s
  | .rolAbsX lo8 hi8 => Sys2Proof.Machine.execRolAbsX lo8 hi8 s
  | .rorAcc => Sys2Proof.Machine.execRorAcc s
  | .rorZp a8 => Sys2Proof.Machine.execRorZp a8 s
  | .rorZpX a8 => Sys2Proof.Machine.execRorZpX a8 s
  | .rorAbs lo8 hi8 => Sys2Proof.Machine.execRorAbs lo8 hi8 s
  | .rorAbsX lo8 hi8 => Sys2Proof.Machine.execRorAbsX lo8 hi8 s
  -- Control transfer (44_control)
  | .jmpAbs lo8 hi8 => Sys2Proof.Machine.execJmpAbs lo8 hi8 s
  | .jmpInd lo8 hi8 => Sys2Proof.Machine.execJmpInd lo8 hi8 s
  | .jsr lo8 hi8 => Sys2Proof.Machine.execJsr lo8 hi8 s
  | .rts => Sys2Proof.Machine.execRts s
  | .bcc off8 => Sys2Proof.Machine.execBcc off8 s
  | .bcs off8 => Sys2Proof.Machine.execBcs off8 s
  | .beq off8 => Sys2Proof.Machine.execBeq off8 s
  | .bne off8 => Sys2Proof.Machine.execBne off8 s
  | .bmi off8 => Sys2Proof.Machine.execBmi off8 s
  | .bpl off8 => Sys2Proof.Machine.execBpl off8 s
  | .bvc off8 => Sys2Proof.Machine.execBvc off8 s
  | .bvs off8 => Sys2Proof.Machine.execBvs off8 s
  | .brk padding => Sys2Proof.Machine.execBrk padding s
  | .rti => Sys2Proof.Machine.execRti s
  | .nop => Sys2Proof.Machine.execNop s
  -- Flags (45_flags)
  | .clc => Sys2Proof.Machine.execClc s
  | .sec => Sys2Proof.Machine.execSec s
  | .cli => Sys2Proof.Machine.execCli s
  | .sei => Sys2Proof.Machine.execSei s
  | .cld => Sys2Proof.Machine.execCld s
  | .sed => Sys2Proof.Machine.execSed s
  | .clv => Sys2Proof.Machine.execClv s

end Sys2Proof.Machine
end

