-- ==== Sys2Proof/Machine/Run.lean ====
section
/-! DEFINITION. The control unit's step (30_encoding R225): faults, reset requests and interrupts before the fetch, the
fetch of an instruction's bytes through the bus, the instruction, and the DMA it asked for. Also the placing of an
instruction where the next step fetches it. -/

namespace Sys2Proof.Machine

/-- The byte at PC without a bus cycle. It stands for JSR's second operand byte in the decoded instruction, whose sequence
reads it by a cycle of its own (44_control R372; log entry 13). -/
def peekPc : M Byte := fun s => .ok (readByte s s.cpu.pc) s

/-- The operand bytes of an entry fetched, and the instruction they make (30_encoding R203 to R213, R225). -/
def fetchOperands : OpEntry → M Instr
  | .bare i => pure i
  | .one f => do
    let b ← fetch
    return f b
  | .two f => do
    let b ← fetch
    let c ← fetch
    return f b c
  | .twoLate f => do
    let b ← fetch
    let c ← peekPc
    return f b c

/-- An opcode fetched and looked up; IllegalOpcode after the fetch's cycle (30_encoding R220, R225). -/
def fetchInstr : M Instr := do
  let r ← getCpu
  let op ← fetch
  match opEntry op with
  | none => raise (.illegalOpcode op r.pc)
  | some e => fetchOperands e

/-- One instruction with its DMA (30_encoding R225, 20_memory R140). -/
def runInstr (s : State) : Host.Outcome State Fault Refusal :=
  match fetchInstr s with
  | .error r t => .fault (r.toFault t)
  | .ok i t =>
    match exec i t with
    | .next u => outcome runRequestedDma u
    | .fault f => .fault f
    | .refused f => .refused f

/-- The interrupt check at the boundary, then an instruction when no entry sequence was run (30_encoding R225). -/
def runBoundary (s : State) : Host.Outcome State Fault Refusal :=
  match interruptDue s with
  | .error r t => .fault (r.toFault t)
  | .ok true t => .next t
  | .ok false t => runInstr t

/-- One step: none while a fault is set (10_state R68), else a reset request, else `Step()` (60_exceptions R680;
30_encoding R225). The list of this step's `frame_ready` pulses starts empty (log entry 11). -/
def controlStep (s : State) : Host.Outcome State Fault Refusal :=
  match s.fault with
  | some r => .fault (r.toFault s)
  | none =>
    if s.inputs.resetReq then outcome takeReset { s with framePulses := [] }
    else runBoundary { s with framePulses := [] }

/-- RAM or PRG ROM: an address a byte of code can be placed at. -/
def holdsCode (a : Word) : Bool :=
  match decodeAddr a with
  | .ram _ | .prg => true
  | _ => false

/-- A byte of code placed at an address, in RAM or in the cartridge. -/
def placeByte (a : Word) (b : Byte) (s : State) : State :=
  match decodeAddr a with
  | .ram i => { s with ram := s.ram.write i b }
  | .prg => { s with board := { s.board with prg := s.board.prg.write (prgIndex s.board.prgSize a) b } }
  | _ => s

/-- Bytes of code placed from an address on. -/
def placeBytes (a : Word) : List Byte → State → State
  | [], s => s
  | b :: bs, s => placeBytes (a + 1#16) bs (placeByte a b s)

/-- The state whose next step fetches an instruction: no fault, no reset request, no interrupt due, and PC where the three
bytes of the longest instruction can be placed (0x0200 where they cannot). -/
def readyToFetch (s : State) : State :=
  { s with
    fault := none
    nmi := { s.nmi with pending := false }
    inputs := { s.inputs with resetReq := false, irqN := s.inputs.irqN || !s.cpu.p.i }
    cpu := { s.cpu with
      pc := if holdsCode s.cpu.pc && holdsCode (s.cpu.pc + 1#16) && holdsCode (s.cpu.pc + 2#16)
            then s.cpu.pc else 0x0200#16 } }

/-- The instruction of a table row's bits placed where the next step fetches it (log entry 4). -/
def placeInstr (s : State) (nbits w : Nat) : State :=
  placeBytes (readyToFetch s).cpu.pc (tableBytes nbits w) (readyToFetch s)

end Sys2Proof.Machine
end

