-- ==== Sys2Proof/Machine/Step.lean ====
section
/-! DEFINITION. The machine's step, and the placing of an instruction for the next one. -/

namespace Sys2Proof.Machine

/-- One step: one instruction with its DMA, one interrupt entry sequence, or the reset sequence (60_exceptions R680). -/
def step (s : State) : Host.Outcome State Fault Refusal := Sys2Proof.Machine.controlStep s

/-- `s` with the instruction whose bits are `w` stored where the next step fetches it (log entry 4). -/
def State.withFetchWord (s : State) (nbits w : Nat) : State := Sys2Proof.Machine.placeInstr s nbits w

end Sys2Proof.Machine
end

