-- ==== Sys2Proof/Machine/Assembly.lean ====
section
/-! DEFINITION. The assembler's text of an instruction (30_encoding R223) and its choice of the zero-page form (R224). The
machine does not use it. -/

namespace Sys2Proof.Machine

/-- The three letters of an instruction. -/
def mnemonic : Instr → String
  | .ldaImm _ => "LDA"
  | .ldaZp _ => "LDA"
  | .ldaZpX _ => "LDA"
  | .ldaAbs _ _ => "LDA"
  | .ldaAbsX _ _ => "LDA"
  | .ldaAbsY _ _ => "LDA"
  | .ldaIndX _ => "LDA"
  | .ldaIndY _ => "LDA"
  | .ldxImm _ => "LDX"
  | .ldxZp _ => "LDX"
  | .ldxZpY _ => "LDX"
  | .ldxAbs _ _ => "LDX"
  | .ldxAbsY _ _ => "LDX"
  | .ldyImm _ => "LDY"
  | .ldyZp _ => "LDY"
  | .ldyZpX _ => "LDY"
  | .ldyAbs _ _ => "LDY"
  | .ldyAbsX _ _ => "LDY"
  | .staZp _ => "STA"
  | .staZpX _ => "STA"
  | .staAbs _ _ => "STA"
  | .staAbsX _ _ => "STA"
  | .staAbsY _ _ => "STA"
  | .staIndX _ => "STA"
  | .staIndY _ => "STA"
  | .stxZp _ => "STX"
  | .stxZpY _ => "STX"
  | .stxAbs _ _ => "STX"
  | .styZp _ => "STY"
  | .styZpX _ => "STY"
  | .styAbs _ _ => "STY"
  | .tax => "TAX"
  | .tay => "TAY"
  | .txa => "TXA"
  | .tya => "TYA"
  | .tsx => "TSX"
  | .txs => "TXS"
  | .pha => "PHA"
  | .php => "PHP"
  | .pla => "PLA"
  | .plp => "PLP"
  | .adcImm _ => "ADC"
  | .adcZp _ => "ADC"
  | .adcZpX _ => "ADC"
  | .adcAbs _ _ => "ADC"
  | .adcAbsX _ _ => "ADC"
  | .adcAbsY _ _ => "ADC"
  | .adcIndX _ => "ADC"
  | .adcIndY _ => "ADC"
  | .sbcImm _ => "SBC"
  | .sbcZp _ => "SBC"
  | .sbcZpX _ => "SBC"
  | .sbcAbs _ _ => "SBC"
  | .sbcAbsX _ _ => "SBC"
  | .sbcAbsY _ _ => "SBC"
  | .sbcIndX _ => "SBC"
  | .sbcIndY _ => "SBC"
  | .andImm _ => "AND"
  | .andZp _ => "AND"
  | .andZpX _ => "AND"
  | .andAbs _ _ => "AND"
  | .andAbsX _ _ => "AND"
  | .andAbsY _ _ => "AND"
  | .andIndX _ => "AND"
  | .andIndY _ => "AND"
  | .oraImm _ => "ORA"
  | .oraZp _ => "ORA"
  | .oraZpX _ => "ORA"
  | .oraAbs _ _ => "ORA"
  | .oraAbsX _ _ => "ORA"
  | .oraAbsY _ _ => "ORA"
  | .oraIndX _ => "ORA"
  | .oraIndY _ => "ORA"
  | .eorImm _ => "EOR"
  | .eorZp _ => "EOR"
  | .eorZpX _ => "EOR"
  | .eorAbs _ _ => "EOR"
  | .eorAbsX _ _ => "EOR"
  | .eorAbsY _ _ => "EOR"
  | .eorIndX _ => "EOR"
  | .eorIndY _ => "EOR"
  | .bitZp _ => "BIT"
  | .bitAbs _ _ => "BIT"
  | .cmpImm _ => "CMP"
  | .cmpZp _ => "CMP"
  | .cmpZpX _ => "CMP"
  | .cmpAbs _ _ => "CMP"
  | .cmpAbsX _ _ => "CMP"
  | .cmpAbsY _ _ => "CMP"
  | .cmpIndX _ => "CMP"
  | .cmpIndY _ => "CMP"
  | .cpxImm _ => "CPX"
  | .cpxZp _ => "CPX"
  | .cpxAbs _ _ => "CPX"
  | .cpyImm _ => "CPY"
  | .cpyZp _ => "CPY"
  | .cpyAbs _ _ => "CPY"
  | .incZp _ => "INC"
  | .incZpX _ => "INC"
  | .incAbs _ _ => "INC"
  | .incAbsX _ _ => "INC"
  | .decZp _ => "DEC"
  | .decZpX _ => "DEC"
  | .decAbs _ _ => "DEC"
  | .decAbsX _ _ => "DEC"
  | .inx => "INX"
  | .iny => "INY"
  | .dex => "DEX"
  | .dey => "DEY"
  | .aslAcc => "ASL"
  | .aslZp _ => "ASL"
  | .aslZpX _ => "ASL"
  | .aslAbs _ _ => "ASL"
  | .aslAbsX _ _ => "ASL"
  | .lsrAcc => "LSR"
  | .lsrZp _ => "LSR"
  | .lsrZpX _ => "LSR"
  | .lsrAbs _ _ => "LSR"
  | .lsrAbsX _ _ => "LSR"
  | .rolAcc => "ROL"
  | .rolZp _ => "ROL"
  | .rolZpX _ => "ROL"
  | .rolAbs _ _ => "ROL"
  | .rolAbsX _ _ => "ROL"
  | .rorAcc => "ROR"
  | .rorZp _ => "ROR"
  | .rorZpX _ => "ROR"
  | .rorAbs _ _ => "ROR"
  | .rorAbsX _ _ => "ROR"
  | .jmpAbs _ _ => "JMP"
  | .jmpInd _ _ => "JMP"
  | .jsr _ _ => "JSR"
  | .rts => "RTS"
  | .bcc _ => "BCC"
  | .bcs _ => "BCS"
  | .beq _ => "BEQ"
  | .bne _ => "BNE"
  | .bmi _ => "BMI"
  | .bpl _ => "BPL"
  | .bvc _ => "BVC"
  | .bvs _ => "BVS"
  | .brk _ => "BRK"
  | .rti => "RTI"
  | .nop => "NOP"
  | .clc => "CLC"
  | .sec => "SEC"
  | .cli => "CLI"
  | .sei => "SEI"
  | .cld => "CLD"
  | .sed => "SED"
  | .clv => "CLV"

/-- A hexadecimal digit. -/
def hexDigit (n : Nat) : Char := ("0123456789ABCDEF".toList).getD n '0'

/-- A byte as two hexadecimal digits. -/
def hexByte (b : Byte) : String := String.ofList [hexDigit (b.toNat / 16), hexDigit (b.toNat % 16)]

/-- The operand text of a mode, for the operand bytes in memory order; a branch is written with its target address, the
address of the instruction being `here` (30_encoding R223). -/
def operandText (here : Word) : AddrMode → List Byte → String
  | .acc, _ => " A"
  | .imm, [b] => " #$" ++ hexByte b
  | .zp, [b] => " $" ++ hexByte b
  | .zpx, [b] => " $" ++ hexByte b ++ ",X"
  | .zpy, [b] => " $" ++ hexByte b ++ ",Y"
  | .indx, [b] => " ($" ++ hexByte b ++ ",X)"
  | .indy, [b] => " ($" ++ hexByte b ++ "),Y"
  | .abs, [lo, hi] => " $" ++ hexByte hi ++ hexByte lo
  | .absx, [lo, hi] => " $" ++ hexByte hi ++ hexByte lo ++ ",X"
  | .absy, [lo, hi] => " $" ++ hexByte hi ++ hexByte lo ++ ",Y"
  | .ind, [lo, hi] => " ($" ++ hexByte hi ++ hexByte lo ++ ")"
  | .rel, [off] =>
    let target := here + 2#16 + sext16 off
    " $" ++ hexByte (page target) ++ hexByte (lowByte target)
  | _, _ => ""

/-- The assembler text of the instruction at address `here` (30_encoding R223). -/
def asmText (here : Word) (i : Instr) : String := mnemonic i ++ operandText here i.mode i.operandBytes

/-- `off8 = target - (address of branch + 2)`, refused outside -128..+127 (30_encoding R223). -/
def branchOffset (here target : Word) : Option Byte :=
  let d := target - (here + 2#16)
  if -128 ≤ d.toInt ∧ d.toInt ≤ 127 then some (lowByte d) else none

/-- The zero-page form an address below 0x0100 selects when the mnemonic has one (30_encoding R224). -/
def zeroPageForm : Instr → Instr
  | .ldaAbs lo8 0x00#8 => .ldaZp lo8
  | .ldaAbsX lo8 0x00#8 => .ldaZpX lo8
  | .ldxAbs lo8 0x00#8 => .ldxZp lo8
  | .ldxAbsY lo8 0x00#8 => .ldxZpY lo8
  | .ldyAbs lo8 0x00#8 => .ldyZp lo8
  | .ldyAbsX lo8 0x00#8 => .ldyZpX lo8
  | .staAbs lo8 0x00#8 => .staZp lo8
  | .staAbsX lo8 0x00#8 => .staZpX lo8
  | .stxAbs lo8 0x00#8 => .stxZp lo8
  | .styAbs lo8 0x00#8 => .styZp lo8
  | .adcAbs lo8 0x00#8 => .adcZp lo8
  | .adcAbsX lo8 0x00#8 => .adcZpX lo8
  | .sbcAbs lo8 0x00#8 => .sbcZp lo8
  | .sbcAbsX lo8 0x00#8 => .sbcZpX lo8
  | .andAbs lo8 0x00#8 => .andZp lo8
  | .andAbsX lo8 0x00#8 => .andZpX lo8
  | .oraAbs lo8 0x00#8 => .oraZp lo8
  | .oraAbsX lo8 0x00#8 => .oraZpX lo8
  | .eorAbs lo8 0x00#8 => .eorZp lo8
  | .eorAbsX lo8 0x00#8 => .eorZpX lo8
  | .bitAbs lo8 0x00#8 => .bitZp lo8
  | .cmpAbs lo8 0x00#8 => .cmpZp lo8
  | .cmpAbsX lo8 0x00#8 => .cmpZpX lo8
  | .cpxAbs lo8 0x00#8 => .cpxZp lo8
  | .cpyAbs lo8 0x00#8 => .cpyZp lo8
  | .incAbs lo8 0x00#8 => .incZp lo8
  | .incAbsX lo8 0x00#8 => .incZpX lo8
  | .decAbs lo8 0x00#8 => .decZp lo8
  | .decAbsX lo8 0x00#8 => .decZpX lo8
  | .aslAbs lo8 0x00#8 => .aslZp lo8
  | .aslAbsX lo8 0x00#8 => .aslZpX lo8
  | .lsrAbs lo8 0x00#8 => .lsrZp lo8
  | .lsrAbsX lo8 0x00#8 => .lsrZpX lo8
  | .rolAbs lo8 0x00#8 => .rolZp lo8
  | .rolAbsX lo8 0x00#8 => .rolZpX lo8
  | .rorAbs lo8 0x00#8 => .rorZp lo8
  | .rorAbsX lo8 0x00#8 => .rorZpX lo8
  | i => i

end Sys2Proof.Machine
end

