-- ==== Sys2Proof/Machine/View.lean ====
section
/-! DEFINITION. What the block shows and no step changes through: the renderer's view port (00_scope R20, 20_memory R134),
the fields of PPUCTRL and PPUMASK as the renderer reads them (10_state R56, R57), the fields of `v` and `t` (R60), and the
phases of a frame (R63). -/

namespace Sys2Proof.Machine

/-- The read-only view port to the renderer (00_scope R20). -/
structure ViewPort where
  vram : Memory 8
  pal  : Memory 6
  oam  : Memory 8
  chr  : Memory 8
  ctrl : Byte
  mask : Byte
  t    : BitVec 15
  x    : BitVec 3
  deriving DecidableEq, Repr

/-- What the view port exposes (00_scope R20, 20_memory R134). -/
def State.viewPort (s : State) : ViewPort :=
  { vram := s.ppu.vram, pal := s.ppu.pal, oam := s.ppu.oam, chr := s.board.chr
    ctrl := s.ppu.ctrl, mask := s.ppu.mask, t := s.ppu.t, x := s.ppu.x }

/-- The base nametable address, PPUCTRL[1:0] (10_state R56). -/
def ViewPort.baseNametable (p : ViewPort) : Nat := 0x2000 + 0x400 * (p.ctrl.extractLsb' 0 2).toNat

/-- The sprite pattern table for 8x8 sprites, PPUCTRL[3] (10_state R56). -/
def ViewPort.spriteTable (p : ViewPort) : Nat := if p.ctrl.getLsbD 3 then 0x1000 else 0x0000

/-- The background pattern table, PPUCTRL[4] (10_state R56). -/
def ViewPort.backgroundTable (p : ViewPort) : Nat := if p.ctrl.getLsbD 4 then 0x1000 else 0x0000

/-- 8x16 sprites, PPUCTRL[5] (10_state R56). -/
def ViewPort.tallSprites (p : ViewPort) : Bool := p.ctrl.getLsbD 5

/-- PPU master/slave select, PPUCTRL[6], stored and without effect (10_state R56). -/
def ViewPort.masterSlave (p : ViewPort) : Bool := p.ctrl.getLsbD 6

/-- Greyscale, PPUMASK[0] (10_state R57). -/
def ViewPort.greyscale (p : ViewPort) : Bool := p.mask.getLsbD 0

/-- Background shown in the leftmost 8 pixels, PPUMASK[1] (10_state R57). -/
def ViewPort.leftBackground (p : ViewPort) : Bool := p.mask.getLsbD 1

/-- Sprites shown in the leftmost 8 pixels, PPUMASK[2] (10_state R57). -/
def ViewPort.leftSprites (p : ViewPort) : Bool := p.mask.getLsbD 2

/-- Background shown, PPUMASK[3] (10_state R57). -/
def ViewPort.showBackground (p : ViewPort) : Bool := p.mask.getLsbD 3

/-- Sprites shown, PPUMASK[4] (10_state R57). -/
def ViewPort.showSprites (p : ViewPort) : Bool := p.mask.getLsbD 4

/-- Emphasised colours red, green and blue, PPUMASK[7:5] (10_state R57). -/
def ViewPort.emphasis (p : ViewPort) : BitVec 3 := p.mask.extractLsb' 5 3

/-- Coarse X of `v` or `t` (10_state R60). -/
def coarseX (v : BitVec 15) : BitVec 5 := v.extractLsb' 0 5

/-- Coarse Y of `v` or `t` (10_state R60). -/
def coarseY (v : BitVec 15) : BitVec 5 := v.extractLsb' 5 5

/-- Nametable select of `v` or `t` (10_state R60). -/
def nametableSelect (v : BitVec 15) : BitVec 2 := v.extractLsb' 10 2

/-- Fine Y of `v` or `t` (10_state R60). -/
def fineY (v : BitVec 15) : BitVec 3 := v.extractLsb' 12 3

/-- The phases of a frame (10_state R63). -/
inductive Phase where
  | visible
  | postRender
  | verticalBlank
  | preRender
  deriving DecidableEq, Repr

/-- The phase of a scanline (10_state R63). -/
def Ppu.phase (p : Ppu) : Phase :=
  if p.scanline ≤ 239 then .visible
  else if p.scanline = 240 then .postRender
  else if p.scanline ≤ 260 then .verticalBlank
  else .preRender

end Sys2Proof.Machine
end

