-- ==== Sys2Proof/Machine/Timing.lean ====
section
/-! DEFINITION. The operation class of every instruction (30_encoding R214) and the summary of instruction timing
(70_reset_and_hazards R735). The machine does not use this table: the bus sequences are normative, and its counts are
stated of them. -/

namespace Sys2Proof.Machine

/-- What kind of bus sequence an instruction has: the three classes of 30_encoding R214, the accumulator and implied forms
of R203, the branches of R213, and the instructions with sequences of their own (41_stack, 44_control). -/
inductive OpClass where
  | read | write | rmw | acc | implied | stack | branch | control
  deriving DecidableEq, Repr

/-- The class of an instruction (30_encoding R214). -/
def opClass : Instr → OpClass
  | .ldaImm _ => .read
  | .ldaZp _ => .read
  | .ldaZpX _ => .read
  | .ldaAbs _ _ => .read
  | .ldaAbsX _ _ => .read
  | .ldaAbsY _ _ => .read
  | .ldaIndX _ => .read
  | .ldaIndY _ => .read
  | .ldxImm _ => .read
  | .ldxZp _ => .read
  | .ldxZpY _ => .read
  | .ldxAbs _ _ => .read
  | .ldxAbsY _ _ => .read
  | .ldyImm _ => .read
  | .ldyZp _ => .read
  | .ldyZpX _ => .read
  | .ldyAbs _ _ => .read
  | .ldyAbsX _ _ => .read
  | .staZp _ => .write
  | .staZpX _ => .write
  | .staAbs _ _ => .write
  | .staAbsX _ _ => .write
  | .staAbsY _ _ => .write
  | .staIndX _ => .write
  | .staIndY _ => .write
  | .stxZp _ => .write
  | .stxZpY _ => .write
  | .stxAbs _ _ => .write
  | .styZp _ => .write
  | .styZpX _ => .write
  | .styAbs _ _ => .write
  | .tax => .implied
  | .tay => .implied
  | .txa => .implied
  | .tya => .implied
  | .tsx => .implied
  | .txs => .implied
  | .pha => .stack
  | .php => .stack
  | .pla => .stack
  | .plp => .stack
  | .adcImm _ => .read
  | .adcZp _ => .read
  | .adcZpX _ => .read
  | .adcAbs _ _ => .read
  | .adcAbsX _ _ => .read
  | .adcAbsY _ _ => .read
  | .adcIndX _ => .read
  | .adcIndY _ => .read
  | .sbcImm _ => .read
  | .sbcZp _ => .read
  | .sbcZpX _ => .read
  | .sbcAbs _ _ => .read
  | .sbcAbsX _ _ => .read
  | .sbcAbsY _ _ => .read
  | .sbcIndX _ => .read
  | .sbcIndY _ => .read
  | .andImm _ => .read
  | .andZp _ => .read
  | .andZpX _ => .read
  | .andAbs _ _ => .read
  | .andAbsX _ _ => .read
  | .andAbsY _ _ => .read
  | .andIndX _ => .read
  | .andIndY _ => .read
  | .oraImm _ => .read
  | .oraZp _ => .read
  | .oraZpX _ => .read
  | .oraAbs _ _ => .read
  | .oraAbsX _ _ => .read
  | .oraAbsY _ _ => .read
  | .oraIndX _ => .read
  | .oraIndY _ => .read
  | .eorImm _ => .read
  | .eorZp _ => .read
  | .eorZpX _ => .read
  | .eorAbs _ _ => .read
  | .eorAbsX _ _ => .read
  | .eorAbsY _ _ => .read
  | .eorIndX _ => .read
  | .eorIndY _ => .read
  | .bitZp _ => .read
  | .bitAbs _ _ => .read
  | .cmpImm _ => .read
  | .cmpZp _ => .read
  | .cmpZpX _ => .read
  | .cmpAbs _ _ => .read
  | .cmpAbsX _ _ => .read
  | .cmpAbsY _ _ => .read
  | .cmpIndX _ => .read
  | .cmpIndY _ => .read
  | .cpxImm _ => .read
  | .cpxZp _ => .read
  | .cpxAbs _ _ => .read
  | .cpyImm _ => .read
  | .cpyZp _ => .read
  | .cpyAbs _ _ => .read
  | .incZp _ => .rmw
  | .incZpX _ => .rmw
  | .incAbs _ _ => .rmw
  | .incAbsX _ _ => .rmw
  | .decZp _ => .rmw
  | .decZpX _ => .rmw
  | .decAbs _ _ => .rmw
  | .decAbsX _ _ => .rmw
  | .inx => .implied
  | .iny => .implied
  | .dex => .implied
  | .dey => .implied
  | .aslAcc => .acc
  | .aslZp _ => .rmw
  | .aslZpX _ => .rmw
  | .aslAbs _ _ => .rmw
  | .aslAbsX _ _ => .rmw
  | .lsrAcc => .acc
  | .lsrZp _ => .rmw
  | .lsrZpX _ => .rmw
  | .lsrAbs _ _ => .rmw
  | .lsrAbsX _ _ => .rmw
  | .rolAcc => .acc
  | .rolZp _ => .rmw
  | .rolZpX _ => .rmw
  | .rolAbs _ _ => .rmw
  | .rolAbsX _ _ => .rmw
  | .rorAcc => .acc
  | .rorZp _ => .rmw
  | .rorZpX _ => .rmw
  | .rorAbs _ _ => .rmw
  | .rorAbsX _ _ => .rmw
  | .jmpAbs _ _ => .control
  | .jmpInd _ _ => .control
  | .jsr _ _ => .control
  | .rts => .control
  | .bcc _ => .branch
  | .bcs _ => .branch
  | .beq _ => .branch
  | .bne _ => .branch
  | .bmi _ => .branch
  | .bpl _ => .branch
  | .bvc _ => .branch
  | .bvs _ => .branch
  | .brk _ => .control
  | .rti => .control
  | .nop => .implied
  | .clc => .implied
  | .sec => .implied
  | .cli => .implied
  | .sei => .implied
  | .cld => .implied
  | .sed => .implied
  | .clv => .implied

/-- The base cycle count of an instruction (70_reset_and_hazards R735), the count of a branch not taken. -/
def baseCycles : Instr → Nat
  | .ldaImm _ => 2
  | .ldaZp _ => 3
  | .ldaZpX _ => 4
  | .ldaAbs _ _ => 4
  | .ldaAbsX _ _ => 4
  | .ldaAbsY _ _ => 4
  | .ldaIndX _ => 6
  | .ldaIndY _ => 5
  | .ldxImm _ => 2
  | .ldxZp _ => 3
  | .ldxZpY _ => 4
  | .ldxAbs _ _ => 4
  | .ldxAbsY _ _ => 4
  | .ldyImm _ => 2
  | .ldyZp _ => 3
  | .ldyZpX _ => 4
  | .ldyAbs _ _ => 4
  | .ldyAbsX _ _ => 4
  | .staZp _ => 3
  | .staZpX _ => 4
  | .staAbs _ _ => 4
  | .staAbsX _ _ => 5
  | .staAbsY _ _ => 5
  | .staIndX _ => 6
  | .staIndY _ => 6
  | .stxZp _ => 3
  | .stxZpY _ => 4
  | .stxAbs _ _ => 4
  | .styZp _ => 3
  | .styZpX _ => 4
  | .styAbs _ _ => 4
  | .tax => 2
  | .tay => 2
  | .txa => 2
  | .tya => 2
  | .tsx => 2
  | .txs => 2
  | .pha => 3
  | .php => 3
  | .pla => 4
  | .plp => 4
  | .adcImm _ => 2
  | .adcZp _ => 3
  | .adcZpX _ => 4
  | .adcAbs _ _ => 4
  | .adcAbsX _ _ => 4
  | .adcAbsY _ _ => 4
  | .adcIndX _ => 6
  | .adcIndY _ => 5
  | .sbcImm _ => 2
  | .sbcZp _ => 3
  | .sbcZpX _ => 4
  | .sbcAbs _ _ => 4
  | .sbcAbsX _ _ => 4
  | .sbcAbsY _ _ => 4
  | .sbcIndX _ => 6
  | .sbcIndY _ => 5
  | .andImm _ => 2
  | .andZp _ => 3
  | .andZpX _ => 4
  | .andAbs _ _ => 4
  | .andAbsX _ _ => 4
  | .andAbsY _ _ => 4
  | .andIndX _ => 6
  | .andIndY _ => 5
  | .oraImm _ => 2
  | .oraZp _ => 3
  | .oraZpX _ => 4
  | .oraAbs _ _ => 4
  | .oraAbsX _ _ => 4
  | .oraAbsY _ _ => 4
  | .oraIndX _ => 6
  | .oraIndY _ => 5
  | .eorImm _ => 2
  | .eorZp _ => 3
  | .eorZpX _ => 4
  | .eorAbs _ _ => 4
  | .eorAbsX _ _ => 4
  | .eorAbsY _ _ => 4
  | .eorIndX _ => 6
  | .eorIndY _ => 5
  | .bitZp _ => 3
  | .bitAbs _ _ => 4
  | .cmpImm _ => 2
  | .cmpZp _ => 3
  | .cmpZpX _ => 4
  | .cmpAbs _ _ => 4
  | .cmpAbsX _ _ => 4
  | .cmpAbsY _ _ => 4
  | .cmpIndX _ => 6
  | .cmpIndY _ => 5
  | .cpxImm _ => 2
  | .cpxZp _ => 3
  | .cpxAbs _ _ => 4
  | .cpyImm _ => 2
  | .cpyZp _ => 3
  | .cpyAbs _ _ => 4
  | .incZp _ => 5
  | .incZpX _ => 6
  | .incAbs _ _ => 6
  | .incAbsX _ _ => 7
  | .decZp _ => 5
  | .decZpX _ => 6
  | .decAbs _ _ => 6
  | .decAbsX _ _ => 7
  | .inx => 2
  | .iny => 2
  | .dex => 2
  | .dey => 2
  | .aslAcc => 2
  | .aslZp _ => 5
  | .aslZpX _ => 6
  | .aslAbs _ _ => 6
  | .aslAbsX _ _ => 7
  | .lsrAcc => 2
  | .lsrZp _ => 5
  | .lsrZpX _ => 6
  | .lsrAbs _ _ => 6
  | .lsrAbsX _ _ => 7
  | .rolAcc => 2
  | .rolZp _ => 5
  | .rolZpX _ => 6
  | .rolAbs _ _ => 6
  | .rolAbsX _ _ => 7
  | .rorAcc => 2
  | .rorZp _ => 5
  | .rorZpX _ => 6
  | .rorAbs _ _ => 6
  | .rorAbsX _ _ => 7
  | .jmpAbs _ _ => 3
  | .jmpInd _ _ => 5
  | .jsr _ _ => 6
  | .rts => 6
  | .bcc _ => 2
  | .bcs _ => 2
  | .beq _ => 2
  | .bne _ => 2
  | .bmi _ => 2
  | .bpl _ => 2
  | .bvc _ => 2
  | .bvs _ => 2
  | .brk _ => 7
  | .rti => 6
  | .nop => 2
  | .clc => 2
  | .sec => 2
  | .cli => 2
  | .sei => 2
  | .cld => 2
  | .sed => 2
  | .clv => 2

/-- The condition of a branch (44_control R374 to R381); false for any other instruction. -/
def branchTaken (p : Flags) : Instr → Bool
  | .bcc _ => !p.c
  | .bcs _ => p.c
  | .beq _ => p.z
  | .bne _ => !p.z
  | .bmi _ => p.n
  | .bpl _ => !p.n
  | .bvc _ => !p.v
  | .bvs _ => p.v
  | _ => false

/-- How many bytes of an instruction are fetched before its own sequence begins: all of them, but not JSR's last. -/
def fetchedBytes : Instr → Nat
  | .jsr _ _ => 2
  | i => i.length

/-- The cycles an instruction takes beyond the base count, from the state after its bytes were fetched: one for a page
crossing of the read class of abs,X, abs,Y and (zp),Y, one for a taken branch and one more when its target lies on another
page (30_encoding R213, R215). -/
def extraCycles (i : Instr) (s : State) : Nat :=
  match opClass i, i.mode, i.operandBytes with
  | .read, .absx, [lo, hi] => if crossesPage hi lo s.cpu.x then 1 else 0
  | .read, .absy, [lo, hi] => if crossesPage hi lo s.cpu.y then 1 else 0
  | .read, .indy, [p] => if crossesPage (s.ram.read (p + 1#8).toNat) (s.ram.read p.toNat) s.cpu.y then 1 else 0
  | .branch, _, [off] =>
    if branchTaken s.cpu.p i then
      if page (s.cpu.pc + sext16 off) = page s.cpu.pc then 1 else 2
    else 0
  | _, _, _ => 0

end Sys2Proof.Machine
end

