-- ==== Sys2Proof/Safety.lean ====
section
/-! DEFINITION. What counts as a good state and a good run, in the terms the claims use: the invariant of the block, the
conditions under which no bus access faults, and the end of a run (70_reset_and_hazards R740). -/

namespace Sys2Proof.Machine

/-- The sequencer's counters in their ranges (10_state R63). -/
abbrev Ppu.countersOk (p : Ppu) : Prop := p.scanline ≤ 261 ∧ p.dot ≤ 340

/-- Bits 4:2 of every stored attribute byte are 0 (20_memory R124, U8). -/
abbrev Ppu.oamOk (p : Ppu) : Prop := ∀ c ∈ p.oam, oamMask c.1 c.2 = c.2

/-- The PPU's memories in canonical form (10_state R67). -/
abbrev Ppu.memoriesOk (p : Ppu) : Prop :=
  Memory.wf Config.vramSize p.vram ∧ Memory.wf Config.palSize p.pal ∧ Memory.wf Config.oamSize p.oam

/-- The cartridge's memories in canonical form (00_scope R22). -/
abbrev Board.ok (b : Board) : Prop := Memory.wf b.prgSize.bytes b.prg ∧ Memory.wf Config.chrSize b.chr

/-- The invariant of the block between steps: the counters in range, every memory in canonical form, no unimplemented OAM
bit stored, the NMI line's last checked level the level it has (60_exceptions R610), and no fault set. -/
abbrev State.Inv (s : State) : Prop :=
  s.ppu.countersOk ∧ s.ppu.memoriesOk ∧ s.ppu.oamOk ∧ Memory.wf Config.ramSize s.ram ∧ s.board.ok ∧
    s.nmi.linePrev = s.ppu.nmiLine ∧ s.fault = none

/-- Rendering is disabled (10_state R57): no access of the block can fault then (20_memory R133). -/
abbrev State.renderingOff (s : State) : Prop := s.ppu.renderingEnabled = false

/-- The next step begins with an opcode fetch: no fault, no reset request, no interrupt due (30_encoding R225; 60_exceptions
R613). -/
abbrev State.fetchesNext (s : State) : Prop :=
  s.fault = none ∧ s.inputs.resetReq = false ∧ s.nmi.pending = false ∧ (s.inputs.irqN = true ∨ s.cpu.p.i = true)

/-- `n` cycles without an access, each with its three dots (00_scope R15). -/
def idleCycles : Nat → State → State
  | 0, s => s
  | n + 1, s => idleCycles n (endCycle s)

/-- `n` dots with their edge checks (60_exceptions R601). -/
def ticks : Nat → State → State
  | 0, s => s
  | n + 1, s => ticks n (tick s)

/-- The state after the side effects of `n` reads of 0x4016 (20_memory R146). -/
def padReads : Nat → State → State
  | 0, s => s
  | n + 1, s => padReads n (afterRead s 0x4016#16)

/-- One fetch cycle from plain memory: the byte at PC on the bus, the cycle ended, PC advanced (00_scope R13). -/
def fetchCycle (s : State) : State :=
  let t := endCycle { s with busLatch := readByte s s.cpu.pc }
  { t with cpu := { t.cpu with pc := t.cpu.pc + 1#16 } }

/-- `n` fetch cycles from plain memory. -/
def fetchCycles : Nat → State → State
  | 0, s => s
  | n + 1, s => fetchCycles n (fetchCycle s)

/-- The operand `m` of a read-class instruction, by the sequence of its mode (30_encoding R204 to R212); 0 for a form no
read-class instruction has. -/
def readOperand (i : Instr) : M Byte :=
  match i.mode, i.operandBytes with
  | .imm, [b] => pure b
  | .zp, [b] => addrZp b >>= memRead
  | .zpx, [b] => addrZpX b >>= memRead
  | .zpy, [b] => addrZpY b >>= memRead
  | .abs, [lo, hi] => addrAbs lo hi >>= memRead
  | .absx, [lo, hi] => addrAbsXRead lo hi >>= memRead
  | .absy, [lo, hi] => addrAbsYRead lo hi >>= memRead
  | .indx, [p] => addrIndX p >>= memRead
  | .indy, [p] => addrIndYRead p >>= memRead
  | _, _ => pure 0x00#8

/-- The effective address of a write or read-modify-write instruction, by the sequence of its mode up to the access itself
(30_encoding R205 to R212); 0 for a form no such instruction has. -/
def storeAddr (i : Instr) : M Word :=
  match i.mode, i.operandBytes with
  | .zp, [b] => addrZp b
  | .zpx, [b] => addrZpX b
  | .zpy, [b] => addrZpY b
  | .abs, [lo, hi] => addrAbs lo hi
  | .absx, [lo, hi] => addrAbsXFull lo hi
  | .absy, [lo, hi] => addrAbsYFull lo hi
  | .indx, [p] => addrIndX p
  | .indy, [p] => addrIndYFull p
  | _, _ => pure 0x0000#16

/-- Bus reads of these addresses in turn, one cycle each, with their side effects, the bytes discarded (30_encoding R214;
20_memory R113). -/
def busReads : List Word → M Unit
  | [] => pure ()
  | a :: as => do
    let _ ← memRead a
    busReads as

/-- The operand of `i` is read at `ea`, by a bus read in the state `u` that the bus reads of `before` leave, a cycle each,
which change no CPU register and no cell; in RAM and PRG ROM it is the byte there, and the read takes one cycle more
(30_encoding R214; 70_reset_and_hazards R724). -/
def readsAt (i : Instr) (before : List Word) (ea : Word) (s : State) : Prop :=
  (∃ u, busReads before s = .ok () u ∧ readOperand i s = memRead ea u ∧ u.cycles = s.cycles + before.length ∧
    u.cpu = s.cpu ∧ ∀ l, u.cell l = s.cell l) ∧
  (holdsCode ea = true → ∃ t, readOperand i s = .ok (readByte s ea) t ∧ t.cycles = s.cycles + before.length + 1)

/-- The effective address of `i` is `ea`, known in the state `u` that the bus reads of `before` leave, a cycle each, which
change no CPU register and no cell (30_encoding R214; 70_reset_and_hazards R724). -/
def storesAt (i : Instr) (before : List Word) (ea : Word) (s : State) : Prop :=
  ∃ u, busReads before s = .ok () u ∧ storeAddr i s = .ok ea u ∧ u.cycles = s.cycles + before.length ∧ u.cpu = s.cpu ∧
    ∀ l, u.cell l = s.cell l

/-- The RAM cell of a stack address (10_state R44). -/
def stackCell (s : Byte) : Nat := 0x100 + s.toNat

/-- The 105 opcode bytes without a table entry, as 30_encoding R220 lists them. -/
def illegalOpcodes : List Byte :=
  [0x02, 0x03, 0x04, 0x07, 0x0B, 0x0C, 0x0F, 0x12, 0x13, 0x14, 0x17, 0x1A, 0x1B, 0x1C, 0x1F] ++
  [0x22, 0x23, 0x27, 0x2B, 0x2F, 0x32, 0x33, 0x34, 0x37, 0x3A, 0x3B, 0x3C, 0x3F, 0x42, 0x43] ++
  [0x44, 0x47, 0x4B, 0x4F, 0x52, 0x53, 0x54, 0x57, 0x5A, 0x5B, 0x5C, 0x5F, 0x62, 0x63, 0x64] ++
  [0x67, 0x6B, 0x6F, 0x72, 0x73, 0x74, 0x77, 0x7A, 0x7B, 0x7C, 0x7F, 0x80, 0x82, 0x83, 0x87] ++
  [0x89, 0x8B, 0x8F, 0x92, 0x93, 0x97, 0x9B, 0x9C, 0x9E, 0x9F, 0xA3, 0xA7, 0xAB, 0xAF, 0xB2] ++
  [0xB3, 0xB7, 0xBB, 0xBF, 0xC2, 0xC3, 0xC7, 0xCB, 0xCF, 0xD2, 0xD3, 0xD4, 0xD7, 0xDA, 0xDB] ++
  [0xDC, 0xDF, 0xE2, 0xE3, 0xE7, 0xEB, 0xEF, 0xF2, 0xF3, 0xF4, 0xF7, 0xFA, 0xFB, 0xFC, 0xFF]

/-- The effect of taking an exception through `vec` with `b` as the pushed B bit (60_exceptions R614, 44_control R382):
three bytes pushed, I set, PC from the vector, everything else of the CPU as it was. -/
def tookException (b : Bool) (vec : Word) (s t : State) : Prop :=
  t.cpu = { s.cpu with
            s := s.cpu.s - 3#8
            p := { s.cpu.p with i := true }
            pc := cat16 (readByte s (vec + 1#16)) (readByte s vec) } ∧
    t.ram = ((s.ram.write (stackCell s.cpu.s) (page s.cpu.pc)).write
              (stackCell (s.cpu.s - 1#8)) (lowByte s.cpu.pc)).write
              (stackCell (s.cpu.s - 2#8)) (pImage s.cpu.p b)

/-- An address at which no access faults in state `s`: rendering is disabled, or the address selects no PPU register
(20_memory R133). -/
abbrev faultFree (s : State) (a : Word) : Prop := s.renderingOff ∨ ∀ r, decodeAddr a ≠ .ppu r

/-- A run's end `Park(h)`: a boundary at which PC = h, the bytes at h are `JMP h`, no DMA is requested and no fault is set
(70_reset_and_hazards R740). DESIGN CHOICE: where an address of the three holds no stored byte, its byte is what a bus read
of it would return in this one state, without the read's cycle and side effect (log entry 17). -/
def State.parkedAt (h : Word) (s : State) : Bool :=
  decide (s.cpu.pc = h) && decide (readByte s h = 0x4C#8) && decide (readByte s (h + 1#16) = lowByte h) &&
    decide (readByte s (h + 2#16) = page h) && decide (s.dmaRequest = none) && decide (s.fault = none)

/-- A run's end `Steps(n)`: the state after the n-th step (70_reset_and_hazards R740). -/
def endsAfterSteps (n : Nat) (s t : State) : Prop := Host.Core.run Sys2Proof.core n s = .next t

/-- A run's end `Park(h)` as the first boundary that is parked at `h` (70_reset_and_hazards R740). -/
def endsParked (h : Word) (s t : State) : Prop :=
  ∃ n, endsAfterSteps n s t ∧ t.parkedAt h = true ∧
    ∀ k u, k < n → endsAfterSteps k s u → u.parkedAt h = false

end Sys2Proof.Machine
end

