-- ==== Sys2Proof/WellFormed.lean ====
section
/-! DEFINITION. What is checked before a term is used: an instruction (nothing beyond its type, 30_encoding R221) and a
presented cartridge (00_scope R22). -/

namespace Sys2Proof

/-- "Operand bytes are never checked: every value of imm8, a8, p8, off8, lo8, hi8 is legal" (30_encoding R221). The
constructors of `Instr` are exactly the 151 opcodes and its operands are bytes, so every term is well formed. -/
abbrev Instr.wf (_ : Instr) : Prop := True

/-- PRG is 16384 or 32768 bytes long (00_scope R22). -/
abbrev CartImage.prgOk (c : CartImage) : Prop :=
  c.prg.length = PrgSize.k16.bytes ∨ c.prg.length = PrgSize.k32.bytes

/-- CHR is 8192 bytes long (00_scope R22). -/
abbrev CartImage.chrOk (c : CartImage) : Prop := c.chr.length = Config.chrSize

/-- The mirroring is horizontal or vertical (00_scope R22). -/
abbrev CartImage.mirroringOk (c : CartImage) : Prop :=
  c.mirroring = .horizontal ∨ c.mirroring = .vertical

/-- A cartridge a block is built with (00_scope R22). -/
abbrev CartImage.wf (c : CartImage) : Prop := c.prgOk ∧ c.chrOk ∧ c.mirroringOk

end Sys2Proof
end

