-- ==== Sys2Proof/Certificates/Slice0/Obligations.lean ====
section
/-! DEFINITION. The statements for the provers, from the numbered rules of spec/. -/

open Sys2Proof Sys2Proof.Machine

/-! ### Encoding -/

/-- 30_encoding R200, R222, R226: decoding the bytes of an instruction gives it back, with every operand at every value,
and leaves the bytes after it. -/
def Obligations.DecodeInvertsEncode : Prop :=
  ∀ (i : Instr) (rest : List Byte), decode (encode i ++ rest) = .instr i rest

/-- 30_encoding R200, R222, R226: a list of bytes that decodes is the encoding of what it decodes to, followed by the rest;
so an opcode byte has one meaning and no operand bit is dropped. -/
def Obligations.DecodedBytesAreTheEncoding : Prop :=
  ∀ (bs : List Byte) (i : Instr) (rest : List Byte), decode bs = .instr i rest → bs = encode i ++ rest

/-- 30_encoding R226 and the **Encoding** lines of R300, R331, R371, R213, R382: eight words written out from the rules
decode to the instructions they stand for, and an illegal opcode byte is refused by name. -/
def Obligations.SampleWordsDecode : Prop :=
  decode [0xA9, 0x05] = .instr (.ldaImm 0x05) [] ∧
  decode [0x91, 0x10, 0xFF] = .instr (.staIndY 0x10) [0xFF] ∧
  decode [0xFD, 0x34, 0x12] = .instr (.sbcAbsX 0x34 0x12) [] ∧
  decode [0x6A] = .instr .rorAcc [] ∧
  decode [0x6C, 0xFF, 0x02] = .instr (.jmpInd 0xFF 0x02) [] ∧
  decode [0x20, 0x00, 0x90] = .instr (.jsr 0x00 0x90) [] ∧
  decode [0xD0, 0xF8] = .instr (.bne 0xF8) [] ∧
  decode [0x00, 0xEA] = .instr (.brk 0xEA) [] ∧
  decode [0x02, 0x00] = .refused (.illegalOpcode 0x02)

/-! ### The step -/

/-- 30_encoding R225, 20_memory R140: with no fault, reset request or interrupt due, and the three bytes from PC in RAM or
PRG ROM, the step is the decoded instruction's meaning on the state after its bytes were fetched, then the DMA it asked
for. JSR's last byte is fetched by its meaning (log entry 13), and the pulses of the step before are dropped (log entry
11). -/
def Obligations.StepRunsTheDecodedInstruction : Prop :=
  ∀ (s : State) (i : Instr) (rest : List Byte), s.fetchesNext →
    holdsCode s.cpu.pc = true → holdsCode (s.cpu.pc + 1#16) = true → holdsCode (s.cpu.pc + 2#16) = true →
    decode [readByte s s.cpu.pc, readByte s (s.cpu.pc + 1#16), readByte s (s.cpu.pc + 2#16)] = .instr i rest →
    step s =
      match exec i (fetchCycles (fetchedBytes i) { s with framePulses := [] }) with
      | .next t => outcome runRequestedDma t
      | .fault f => .fault f
      | .refused f => .refused f

/-- 30_encoding R220: the 105 listed bytes are those without a table entry, and fetching one, from whatever address, raises
IllegalOpcode(op, op_addr) after the opcode fetch's cycle, so that one cycle and one byte of PC have passed (R651). That the
fault carries the state at the raise, and that the pulses of the step before are dropped, is the model's form (log entries
12 and 11). -/
def Obligations.IllegalOpcodeStopsTheBlock : Prop :=
  (∀ op : Byte, op ∈ illegalOpcodes ↔ opEntry op = none) ∧
  ∀ (s s1 : State) (op : Byte), s.fetchesNext → op ∈ illegalOpcodes →
    memRead s.cpu.pc { s with framePulses := [] } = .ok op s1 →
    s1.cycles = s.cycles + 1 ∧
    step s = .fault (.illegalOpcode op s.cpu.pc
      { s1 with cpu := { s.cpu with pc := s.cpu.pc + 1#16 }, fault := some (.illegalOpcode op s.cpu.pc) })

/-- 10_state R68, 60_exceptions R650, R652: no fault is set at reset; a step refuses nothing and every fault it stops with
carries a state whose fault field holds the record of that fault; and while a fault is set no step is taken, the same fault
is answered again (log entry 12) and no reset request is accepted. -/
def Obligations.FaultsAreRecordedAndFinal : Prop :=
  State.reset.fault = none ∧
  ∀ s : State, (∀ f, step s ≠ .refused f) ∧
    (∀ f, step s = .fault f → ∃ (r : FaultRecord) (t : State), t.fault = some r ∧ f = r.toFault t) ∧
    ∀ r : FaultRecord, s.fault = some r → step s = .fault (r.toFault s) ∧ s.requestReset = s

/-! ### Reset and construction -/

/-- 70_reset_and_hazards R700, 10_state R68, R69, 60_exceptions R680: whatever the state and the draw, the reset
sequence completes with the values of the rule; a reset request is not accepted while a fault is set. -/
def Obligations.ResetSequenceLeavesItsValues : Prop :=
  ∀ (d : PpuDraw) (s : State), (s.fault ≠ none → s.requestReset = s) ∧ ∃ t, resetSequence d s = .ok () t ∧
    t.cpu = { a := 0x00, x := 0x00, y := 0x00, s := 0xFD
              pc := cat16 (readByte s 0xFFFD#16) (readByte s 0xFFFC#16)
              p := { c := false, z := false, i := true, d := false, v := false, n := false } } ∧
    t.cycles = 7 ∧ t.nmi = { linePrev := false, pending := false } ∧ t.dmaRequest = none ∧
    t.pad = { strobe := false, shiftReg := 0x00 } ∧
    t.ppu = { ctrl := 0x00, mask := 0x00, vbl := false, s0hit := false, sovf := false, oamAddr := 0x00
              v := 0, t := 0, x := 0, w := false, readBuffer := d.readBuffer, ioLatch := s.ppu.ioLatch
              vram := d.vram, pal := d.pal, oam := d.oam, scanline := 0, dot := 21, oddFrame := false } ∧
    t.ram = s.ram ∧ t.busLatch = readByte s 0xFFFD#16 ∧ t.fault = s.fault ∧ t.board = s.board

/-- 60_exceptions R680, 70_reset_and_hazards R700: a reset the host requested is taken by the next step, which discards a
pending NMI and consumes the request. The draw is the model's free value and its count the model's own field (log entries 9
and 10), and so is the form of the request (log entry 6). -/
def Obligations.StepTakesARequestedReset : Prop :=
  ∀ s : State, s.fault = none →
    ∃ t, step s.requestReset = .next t ∧ t.inputs = { s.inputs with resetReq := false } ∧ t.cycles = 7 ∧
      t.nmi.pending = false ∧ t.ram = s.ram ∧ t.draws = s.draws + 1

/-- 10_state R69: the state right after reset is the block built with an all-zero 32 KiB cartridge and a power-on draw of zeros
(log entries 1 to 4), and it has the values the table states. -/
def Obligations.ResetStateHasTheTableValues : Prop :=
  (∀ c : CartImage, c.prg.length = 32768 → c.chr.length = 8192 → (∀ b ∈ c.prg, b = 0) → (∀ b ∈ c.chr, b = 0) →
    c.mirroring = .horizontal →
    construct c .latch { ram := [], vram := [], pal := [], oam := [], readBuffer := 0, ioLatch := 0, busLatch := 0 } =
      .next State.reset) ∧
  State.reset.cpu.a = 0x00 ∧ State.reset.cpu.x = 0x00 ∧ State.reset.cpu.y = 0x00 ∧ State.reset.cpu.s = 0xFD ∧
  pImage State.reset.cpu.p false = 0x24 ∧
  State.reset.cpu.pc = cat16 (readByte State.reset 0xFFFD#16) (readByte State.reset 0xFFFC#16) ∧
  State.reset.cycles = 7 ∧ State.reset.nmi = { linePrev := false, pending := false } ∧
  State.reset.dmaRequest = none ∧ State.reset.pad = { strobe := false, shiftReg := 0x00 } ∧
  State.reset.ppu.ctrl = 0x00 ∧ State.reset.ppu.mask = 0x00 ∧ State.reset.ppu.vbl = false ∧
  State.reset.ppu.s0hit = false ∧ State.reset.ppu.sovf = false ∧ State.reset.ppu.oamAddr = 0x00 ∧
  State.reset.ppu.v = 0 ∧ State.reset.ppu.t = 0 ∧ State.reset.ppu.x = 0 ∧ State.reset.ppu.w = false ∧
  State.reset.ppu.scanline = 0 ∧ State.reset.ppu.dot = 21 ∧ State.reset.ppu.oddFrame = false ∧
  State.reset.fault = none ∧ State.reset.busLatch = readByte State.reset 0xFFFD#16

/-- 00_scope R22, 70_reset_and_hazards R701: a cartridge of another size or mirroring is refused, and any other builds a
block whose reset sequence has run, with its memories, read buffer and I/O latch from the draw. That what a list of the draw
leaves out is 0, and that no unimplemented bit of the draw's OAM is kept, are the model's choices (log entries 1, 2 and
16). -/
def Obligations.ConstructionRefusesOtherCartridges : Prop :=
  ∀ (c : CartImage) (mode : OpenBusMode) (d : PowerOn),
    (c.wf ↔ (c.prg.length = 16384 ∨ c.prg.length = 32768) ∧ c.chr.length = 8192 ∧
      c.mirroring ≠ .fourScreen ∧ c.mirroring ≠ .singleScreen) ∧
    (¬ c.wf → ∃ f, construct c mode d = .refused f) ∧
    (c.wf → ∃ t, construct c mode d = .next t ∧ t.Inv ∧ t.cycles = 7 ∧ t.board = boardOf c mode ∧
      t.ram = Memory.ofList Config.ramSize d.ram ∧ t.ppu.ioLatch = d.ioLatch ∧ t.ppu.readBuffer = d.readBuffer ∧
      (∀ i, i < Config.vramSize → t.ppu.vram.read i = d.vram.getD i 0x00) ∧
      (∀ i, i < Config.palSize → t.ppu.pal.read i = d.pal.getD i 0) ∧
      ∀ i, i < Config.oamSize → t.ppu.oam.read i = oamMask i (d.oam.getD i 0x00))

/-! ### Invariants of the whole machine -/

/-- The invariant holds at reset (10_state R63, R67, R69). It rests on the blank memories of log entries 1, 2 and 4. -/
def Obligations.InvariantHoldsAtReset : Prop := State.reset.Inv

/-- 10_state R63, R64, R67, 20_memory R124: every step that answers a next state keeps the invariant: the counters in range,
every memory in canonical form, no unimplemented OAM bit stored, the NMI line's checked level the line's, no fault set.
Across a step that takes a reset, that OAM has no unimplemented bit is the model's choice (log entry 16). -/
def Obligations.StepKeepsTheInvariant : Prop :=
  ∀ s t : State, s.Inv → step s = .next t → t.Inv

/-- 00_scope R21: "Once constructed, it is read-only": no step changes the cartridge, its mirroring or the open-bus mode, and
no step but a taken reset changes an input of the host. Cartridge, mode and inputs are fields of the model's State (log
entries 5 and 6). -/
def Obligations.NoStepChangesTheCartridge : Prop :=
  ∀ s t : State, step s = .next t →
    t.board = s.board ∧ t.inputs.irqN = s.inputs.irqN ∧ t.inputs.buttons = s.inputs.buttons ∧
      (s.inputs.resetReq = false → t.inputs = s.inputs)

/-- 60_exceptions R610, R613: once latched, an NMI request survives every instruction. -/
def Obligations.NoInstructionDropsAPendingNmi : Prop :=
  ∀ (i : Instr) (s t : State), exec i s = .next t → s.nmi.pending = true → t.nmi.pending = true

/-- 20_memory R124, R127, R128, R133, 60_exceptions R650: an instruction never refuses, and the only fault it raises is a
PPUDATA access or an OAMDATA write on a rendering line with rendering enabled; so PpuAddressOutOfRange is unreachable
(R132). That the fault carries the state at the raise is the model's form (log entry 12). -/
def Obligations.InstructionsFaultOnlyOnRenderingAccesses : Prop :=
  ∀ (i : Instr) (s : State), (∀ f, exec i s ≠ .refused f) ∧
    ∀ f, exec i s = .fault f → ∃ reg dir t,
      f = .unmodelledRenderingAccess reg dir t.ppu.scanline t.ppu.dot t ∧
      ((reg = .ppudata) ∨ (reg = .oamdata ∧ dir = .write)) ∧ t.ppu.inRender = true ∧
      t.fault = some (.unmodelledRenderingAccess reg dir t.ppu.scanline t.ppu.dot)

/-- 20_memory R133: with rendering disabled every instruction completes, in every state and with every operand; it sets no
fault, leaves the host's inputs, and never takes the cycle count back. -/
def Obligations.EveryInstructionCompletesWithRenderingOff : Prop :=
  ∀ (i : Instr) (s : State), s.renderingOff → ∃ t, exec i s = .next t ∧
    t.fault = s.fault ∧ t.inputs = s.inputs ∧ s.cycles ≤ t.cycles

/-- 70_reset_and_hazards R735, 30_encoding R215: an instruction that completes takes the cycles of the table, and one or two
more for a crossed page or a taken branch; its fetched bytes took one each. -/
def Obligations.InstructionsTakeTheTableCycles : Prop :=
  ∀ (i : Instr) (s t : State), exec i s = .next t →
    t.cycles + fetchedBytes i = s.cycles + baseCycles i + extraCycles i s

/-! ### Frames -/

/-- 10_state R41 to R44: A, X, Y and S are written only by the instructions the rules list. -/
def Obligations.RegistersAreWrittenOnlyByTheirInstructions : Prop :=
  ∀ (i : Instr) (s t : State), exec i s = .next t →
    (mnemonic i ∉ ["LDA", "PLA", "TXA", "TYA", "ADC", "SBC", "AND", "ORA", "EOR"] → opClass i ≠ .acc →
      t.cpu.a = s.cpu.a) ∧
    (mnemonic i ∉ ["LDX", "TAX", "TSX", "INX", "DEX"] → t.cpu.x = s.cpu.x) ∧
    (mnemonic i ∉ ["LDY", "TAY", "INY", "DEY"] → t.cpu.y = s.cpu.y) ∧
    (mnemonic i ∉ ["TXS", "PHA", "PHP", "JSR", "BRK", "PLA", "PLP", "RTS", "RTI"] → t.cpu.s = s.cpu.s)

/-- 10_state R47 to R52: each flag is written only by the instructions its rule lists. -/
def Obligations.FlagsAreWrittenOnlyByTheirInstructions : Prop :=
  ∀ (i : Instr) (s t : State), exec i s = .next t →
    (mnemonic i ∉ ["ADC", "SBC", "CMP", "CPX", "CPY", "ASL", "LSR", "ROL", "ROR", "CLC", "SEC", "PLP", "RTI"] →
      t.cpu.p.c = s.cpu.p.c) ∧
    (mnemonic i ∉ ["LDA", "LDX", "LDY", "TAX", "TAY", "TXA", "TYA", "TSX", "PLA", "ADC", "SBC", "AND", "ORA", "EOR",
        "CMP", "CPX", "CPY", "INC", "INX", "INY", "DEC", "DEX", "DEY", "ASL", "LSR", "ROL", "ROR", "BIT", "PLP", "RTI"] →
      t.cpu.p.z = s.cpu.p.z ∧ t.cpu.p.n = s.cpu.p.n) ∧
    (mnemonic i ∉ ["SEI", "CLI", "BRK", "PLP", "RTI"] → t.cpu.p.i = s.cpu.p.i) ∧
    (mnemonic i ∉ ["SED", "CLD", "PLP", "RTI"] → t.cpu.p.d = s.cpu.p.d) ∧
    (mnemonic i ∉ ["ADC", "SBC", "BIT", "CLV", "PLP", "RTI"] → t.cpu.p.v = s.cpu.p.v)

/-- 30_encoding R214, 41_stack, 44_control: an instruction that neither stores nor pushes leaves every cell of every memory
as it was. -/
def Obligations.NonStoringInstructionsKeepEveryCell : Prop :=
  ∀ (i : Instr) (s t : State), exec i s = .next t → opClass i ≠ .write → opClass i ≠ .rmw →
    mnemonic i ∉ ["PHA", "PHP", "JSR", "BRK"] → ∀ l, t.cell l = s.cell l

/-- 41_stack R320, R321, 44_control R372, R382: a pushing instruction changes no cell but the RAM cells it pushes to: one
for PHA and PHP, two for JSR, three for BRK. -/
def Obligations.PushesStoreOnlyOnTheStack : Prop :=
  ∀ (i : Instr) (s t : State), exec i s = .next t → mnemonic i ∈ ["PHA", "PHP", "JSR", "BRK"] →
    ∀ l, l ≠ .ram (stackCell s.cpu.s) →
      (mnemonic i ∈ ["JSR", "BRK"] → l ≠ .ram (stackCell (s.cpu.s - 1#8))) →
      (mnemonic i = "BRK" → l ≠ .ram (stackCell (s.cpu.s - 2#8))) → t.cell l = s.cell l

/-- 10_state R56, R57, R60, R65, R66: the registers only a CPU write can change are changed by no instruction outside the
write and read-modify-write classes: PPUCTRL, PPUMASK, `t`, `x`, the DMA request and the strobe. -/
def Obligations.ControlRegistersChangeOnlyByStores : Prop :=
  ∀ (i : Instr) (s t : State), exec i s = .next t → opClass i ≠ .write → opClass i ≠ .rmw →
    t.ppu.ctrl = s.ppu.ctrl ∧ t.ppu.mask = s.ppu.mask ∧ t.ppu.t = s.ppu.t ∧ t.ppu.x = s.ppu.x ∧
      t.dmaRequest = s.dmaRequest ∧ t.pad.strobe = s.pad.strobe

/-- 20_memory R103, R113, 30_encoding R214: reading the operand of a read-class instruction changes no CPU register and no
cell, and completes whenever rendering is disabled. -/
def Obligations.OperandReadsChangeNoRegisterAndNoCell : Prop :=
  ∀ (i : Instr) (s : State),
    (s.renderingOff → ∃ m t, readOperand i s = .ok m t) ∧
    ∀ m t, readOperand i s = .ok m t → t.cpu = s.cpu ∧ ∀ l, t.cell l = s.cell l

/-! ### Addressing modes -/

/-- 30_encoding R204 to R207, R210, R211, 20_memory R113, 70_reset_and_hazards R724: what every form with one operand byte
reads, and where it stores, in every instruction that has the form, with every bus read that comes before, after its bytes
were fetched, side effects included. Immediate: the byte itself. The page-zero modes: a RAM cell, the indexed sums wrapping
inside page zero after a read of the unindexed address. (zp,X) and (zp),Y: the pointer is two page-zero bytes, low byte
first, wrapping inside page zero, after a read of the unindexed address for (zp,X); Y is added to the pointer modulo 2^16, a
store reads the address before the high-byte carry always and a read does only when a page is crossed. -/
def Obligations.OneByteOperandFormsReadAndStore : Prop :=
  ∀ (i : Instr) (s : State) (a8 : Byte), i.operandBytes = [a8] →
    let zx := (a8.toNat + s.cpu.x.toNat) % 256
    let zx1 := (a8.toNat + s.cpu.x.toNat + 1) % 256
    let zy := (a8.toNat + s.cpu.y.toNat) % 256
    let at16 : Nat → Word := fun k => BitVec.ofNat 16 k
    let ramAt : List Word → Nat → Prop := fun before k =>
      storesAt i before (at16 k) s ∧ readsAt i before (at16 k) s ∧
        ∃ t, readOperand i s = .ok (s.ram.read k) t ∧ t.cycles = s.cycles + before.length + 1
    (i.mode = .imm → readOperand i s = .ok a8 s) ∧
    (i.mode = .zp → ramAt [] a8.toNat) ∧
    (i.mode = .zpx → ramAt [at16 a8.toNat] zx) ∧
    (i.mode = .zpy → ramAt [at16 a8.toNat] zy) ∧
    (i.mode = .indx →
      let ea := cat16 (s.ram.read zx1) (s.ram.read zx)
      let before := [at16 a8.toNat, at16 zx, at16 zx1]
      storesAt i before ea s ∧ readsAt i before ea s) ∧
    (i.mode = .indy →
      let lo := s.ram.read a8.toNat
      let hi := s.ram.read ((a8.toNat + 1) % 256)
      let ea := cat16 hi lo + zext16 s.cpu.y
      let wrong := cat16 hi (lo + s.cpu.y)
      let pointer := [at16 a8.toNat, at16 ((a8.toNat + 1) % 256)]
      let sameP := lo.toNat + s.cpu.y.toNat < 256
      (faultFree s wrong → storesAt i (pointer ++ [wrong]) ea s) ∧
      (sameP ∨ faultFree s wrong → readsAt i (if sameP then pointer else pointer ++ [wrong]) ea s))

/-- 30_encoding R208, R209, R212, R215, 20_memory R113, 70_reset_and_hazards R724: what every form with an absolute address
reads, and where it stores, in every instruction that has the form, with every bus read that comes before, after its bytes
were fetched, side effects included. Absolute: the address itself, and no read before. Indexed: the index added modulo 2^16;
a store reads the address before the high-byte carry always, and a read does, in a cycle more, exactly when the indexed
address lies on another page. -/
def Obligations.AbsoluteFormsReadAndStore : Prop :=
  ∀ (i : Instr) (s : State) (lo8 hi8 : Byte), i.operandBytes = [lo8, hi8] →
    let indexed : Byte → Prop := fun idx =>
      let ea := cat16 hi8 lo8 + zext16 idx
      let wrong := cat16 hi8 (lo8 + idx)
      let sameP := lo8.toNat + idx.toNat < 256
      (faultFree s wrong → storesAt i [wrong] ea s) ∧
      (sameP ∨ faultFree s wrong → readsAt i (if sameP then [] else [wrong]) ea s)
    (i.mode = .abs → storesAt i [] (cat16 hi8 lo8) s ∧ readsAt i [] (cat16 hi8 lo8) s) ∧
    (i.mode = .absx → indexed s.cpu.x) ∧
    (i.mode = .absy → indexed s.cpu.y)

/-! ### Loads, stores, transfers -/

/-- 40_load_store_transfer R300, R301, R302: every form of LDA, LDX and LDY whose operand can be read completes with the
operand in its register and N and Z of it. -/
def Obligations.LoadsSetTheirRegister : Prop :=
  ∀ (i : Instr) (s s1 : State) (m : Byte), readOperand i s = .ok m s1 →
    (mnemonic i = "LDA" → exec i s = .next { s1 with cpu := { s.cpu with
      a := m, p := { s.cpu.p with z := decide (m = 0), n := m.getLsbD 7 } } }) ∧
    (mnemonic i = "LDX" → exec i s = .next { s1 with cpu := { s.cpu with
      x := m, p := { s.cpu.p with z := decide (m = 0), n := m.getLsbD 7 } } }) ∧
    (mnemonic i = "LDY" → exec i s = .next { s1 with cpu := { s.cpu with
      y := m, p := { s.cpu.p with z := decide (m = 0), n := m.getLsbD 7 } } })

/-- 40_load_store_transfer R303, R304, R305, 30_encoding R214: every form of STA, STX and STY completes, when the write at
its effective address does not fault, with its register's byte written there by one bus cycle; no register or flag changes,
and no cell but the one the write goes to. -/
def Obligations.StoresWriteTheirRegister : Prop :=
  ∀ (i : Instr) (s s1 : State) (ea : Word), opClass i = .write → storeAddr i s = .ok ea s1 → writeFault s1 ea = none →
    ∃ (r : Byte) (t : State), exec i s = .next t ∧ t = endCycle { afterWrite s1 ea r with busLatch := r } ∧
      (mnemonic i = "STA" → r = s.cpu.a) ∧ (mnemonic i = "STX" → r = s.cpu.x) ∧ (mnemonic i = "STY" → r = s.cpu.y) ∧
      mnemonic i ∈ ["STA", "STX", "STY"] ∧ t.cpu = s.cpu ∧
      (∀ l, storeLoc s1 ea ≠ some l → t.cell l = s.cell l) ∧ ∀ k, decodeAddr ea = .ram k → t.cell (.ram k) = r

/-- 40_load_store_transfer R306 to R311, 43_incdec_shift R352 to R355: after the dummy read of the next byte each transfer
copies its register, and INX, INY, DEX and DEY step theirs modulo 256; all but TXS set N and Z of the value. Each is the one
byte of its rule, and takes one cycle after its fetch. -/
def Obligations.TransfersAndIndexStepsActOnRegisters : Prop :=
  ∀ (s s1 : State) (b : Byte), memRead s.cpu.pc s = .ok b s1 →
    let nz : Byte → Flags := fun v => { s.cpu.p with z := decide (v = 0), n := v.getLsbD 7 }
    ([Instr.tax, .tay, .txa, .tya, .tsx, .txs, .inx, .iny, .dex, .dey].map encode =
      [[0xAA], [0xA8], [0x8A], [0x98], [0xBA], [0x9A], [0xE8], [0xC8], [0xCA], [0x88]]) ∧
    s1.cycles = s.cycles + 1 ∧
    exec .tax s = .next { s1 with cpu := { s.cpu with x := s.cpu.a, p := nz s.cpu.a } } ∧
    exec .tay s = .next { s1 with cpu := { s.cpu with y := s.cpu.a, p := nz s.cpu.a } } ∧
    exec .txa s = .next { s1 with cpu := { s.cpu with a := s.cpu.x, p := nz s.cpu.x } } ∧
    exec .tya s = .next { s1 with cpu := { s.cpu with a := s.cpu.y, p := nz s.cpu.y } } ∧
    exec .tsx s = .next { s1 with cpu := { s.cpu with x := s.cpu.s, p := nz s.cpu.s } } ∧
    exec .txs s = .next { s1 with cpu := { s.cpu with s := s.cpu.x } } ∧
    exec .inx s = .next { s1 with cpu := { s.cpu with x := s.cpu.x + 1#8, p := nz (s.cpu.x + 1#8) } } ∧
    exec .iny s = .next { s1 with cpu := { s.cpu with y := s.cpu.y + 1#8, p := nz (s.cpu.y + 1#8) } } ∧
    exec .dex s = .next { s1 with cpu := { s.cpu with x := s.cpu.x - 1#8, p := nz (s.cpu.x - 1#8) } } ∧
    exec .dey s = .next { s1 with cpu := { s.cpu with y := s.cpu.y - 1#8, p := nz (s.cpu.y - 1#8) } }

/-! ### Stack -/

/-- 41_stack R320, R321: PHA stores A, and PHP the image of P with bits 5 and 4 set, at 0x0100 | S, and S goes down by one
modulo 256. -/
def Obligations.PushInstructionsStoreAndDecrement : Prop :=
  ∀ s : State, faultFree s s.cpu.pc → encode .pha = [0x48] ∧ encode .php = [0x08] ∧
    (∃ t, exec .pha s = .next t ∧ t.ram = s.ram.write (stackCell s.cpu.s) s.cpu.a ∧
      t.cpu = { s.cpu with s := s.cpu.s - 1#8 } ∧ t.cycles = s.cycles + 2) ∧
    (∃ t, exec .php s = .next t ∧ t.ram = s.ram.write (stackCell s.cpu.s) (pImage s.cpu.p true) ∧
      t.cpu = { s.cpu with s := s.cpu.s - 1#8 } ∧ t.cycles = s.cycles + 2) ∧
    (pImage s.cpu.p true).getLsbD 5 = true ∧ (pImage s.cpu.p true).getLsbD 4 = true

/-- 41_stack R322, R323: PLA and PLP take the byte at 0x0100 | (S + 1); PLA sets A, N and Z, PLP the six flags from bits 0,
1, 2, 3, 6 and 7. -/
def Obligations.PullInstructionsIncrementAndLoad : Prop :=
  ∀ s : State, faultFree s s.cpu.pc →
    let b := s.ram.read (stackCell (s.cpu.s + 1#8))
    encode .pla = [0x68] ∧ encode .plp = [0x28] ∧
    (∃ t, exec .pla s = .next t ∧ t.ram = s.ram ∧ t.cycles = s.cycles + 3 ∧
      t.cpu = { s.cpu with s := s.cpu.s + 1#8, a := b, p := { s.cpu.p with z := decide (b = 0), n := b.getLsbD 7 } }) ∧
    (∃ t, exec .plp s = .next t ∧ t.ram = s.ram ∧ t.cycles = s.cycles + 3 ∧
      t.cpu = { s.cpu with
        s := s.cpu.s + 1#8
        p := { c := b.getLsbD 0, z := b.getLsbD 1, i := b.getLsbD 2
               d := b.getLsbD 3, v := b.getLsbD 6, n := b.getLsbD 7 } })

/-! ### Arithmetic, logic, compare -/

/-- 42_arith_logic R330, R339: every form of ADC whose operand can be read gives A + m + C modulo 256, with C the carry out
of the unsigned sum, V the signed sum out of -128..127, and N and Z of the result, whatever D holds. -/
def Obligations.AdcAddsWithCarry : Prop :=
  ∀ (i : Instr) (s s1 : State) (m : Byte), mnemonic i = "ADC" → readOperand i s = .ok m s1 →
    let c : Nat := if s.cpu.p.c then 1 else 0
    let sum : Nat := s.cpu.a.toNat + m.toNat + c
    let signed : Int := s.cpu.a.toInt + m.toInt + c
    let r : Byte := BitVec.ofNat 8 sum
    exec i s = .next { s1 with cpu := { s.cpu with
      a := r
      p := { s.cpu.p with c := decide (256 ≤ sum), v := decide (signed < -128 ∨ 127 < signed)
                          z := decide (r = 0), n := r.getLsbD 7 } } }

/-- 42_arith_logic R331, R339: every form of SBC whose operand can be read gives A - m - (1 - C) modulo 256, with C set when
A >= m + (1 - C) unsigned, V the signed difference out of -128..127, and N and Z of the result, whatever D holds. -/
def Obligations.SbcSubtractsWithBorrow : Prop :=
  ∀ (i : Instr) (s s1 : State) (m : Byte), mnemonic i = "SBC" → readOperand i s = .ok m s1 →
    let borrow : Nat := if s.cpu.p.c then 0 else 1
    let signed : Int := s.cpu.a.toInt - m.toInt - borrow
    let r : Byte := BitVec.ofNat 8 (s.cpu.a.toNat + 256 - m.toNat - borrow)
    exec i s = .next { s1 with cpu := { s.cpu with
      a := r
      p := { s.cpu.p with c := decide (m.toNat + borrow ≤ s.cpu.a.toNat), v := decide (signed < -128 ∨ 127 < signed)
                          z := decide (r = 0), n := r.getLsbD 7 } } }

/-- 42_arith_logic R332 to R335: AND, ORA and EOR combine A with the operand and set N and Z; BIT sets Z from A & m, N and V
from bits 7 and 6 of m, and keeps A. -/
def Obligations.LogicCombinesWithA : Prop :=
  ∀ (i : Instr) (s s1 : State) (m : Byte), readOperand i s = .ok m s1 →
    let load : Byte → Cpu := fun v =>
      { s.cpu with a := v, p := { s.cpu.p with z := decide (v = 0), n := v.getLsbD 7 } }
    (mnemonic i = "AND" → exec i s = .next { s1 with cpu := load (s.cpu.a &&& m) }) ∧
    (mnemonic i = "ORA" → exec i s = .next { s1 with cpu := load (s.cpu.a ||| m) }) ∧
    (mnemonic i = "EOR" → exec i s = .next { s1 with cpu := load (s.cpu.a ^^^ m) }) ∧
    (mnemonic i = "BIT" → exec i s = .next { s1 with cpu := { s.cpu with
      p := { s.cpu.p with z := decide (s.cpu.a &&& m = 0), n := m.getLsbD 7, v := m.getLsbD 6 } } })

/-- 42_arith_logic R336, R337, R338: a compare sets C when the register is not below the operand as unsigned numbers, Z when
they are equal, N from bit 7 of the difference, and keeps the register and V. -/
def Obligations.ComparesOrderTheirRegister : Prop :=
  ∀ (i : Instr) (s s1 : State) (m : Byte), readOperand i s = .ok m s1 →
    let cmp : Byte → Cpu := fun q => { s.cpu with
      p := { s.cpu.p with c := decide (m.toNat ≤ q.toNat), z := decide (q = m), n := (q - m).getLsbD 7 } }
    (mnemonic i = "CMP" → exec i s = .next { s1 with cpu := cmp s.cpu.a }) ∧
    (mnemonic i = "CPX" → exec i s = .next { s1 with cpu := cmp s.cpu.x }) ∧
    (mnemonic i = "CPY" → exec i s = .next { s1 with cpu := cmp s.cpu.y })

/-! ### Increment, decrement, shift, rotate -/

/-- 43_incdec_shift R350, R351, R356 to R359, 30_encoding R214: a memory form completes when its read and its two writes do:
m is written back first, then f(m), and the flags are those of f(m) and the bit shifted out, set after the final write (log
entry 14). No register changes but those flags, and no cell but those of the two writes. -/
def Obligations.RmwWritesBackThenTheResult : Prop :=
  ∀ (i : Instr) (s s1 s2 s3 s4 : State) (ea : Word) (m r : Byte), opClass i = .rmw → storeAddr i s = .ok ea s1 →
    memRead ea s1 = .ok m s2 → memWrite ea m s2 = .ok () s3 → memWrite ea r s3 = .ok () s4 →
    let done : Bool → Host.Outcome State Fault Refusal := fun c =>
      .next { s4 with cpu := { s.cpu with p := { s.cpu.p with c := c, z := decide (r = 0), n := r.getLsbD 7 } } }
    (mnemonic i = "INC" → r = m + 1#8 → exec i s = done s.cpu.p.c) ∧
    (mnemonic i = "DEC" → r = m - 1#8 → exec i s = done s.cpu.p.c) ∧
    (mnemonic i = "ASL" → r = m <<< 1 → exec i s = done (m.getLsbD 7)) ∧
    (mnemonic i = "LSR" → r = m >>> 1 → exec i s = done (m.getLsbD 0)) ∧
    (mnemonic i = "ROL" → r = (m <<< 1 ||| if s.cpu.p.c then 0x01#8 else 0x00#8) → exec i s = done (m.getLsbD 7)) ∧
    (mnemonic i = "ROR" → r = (m >>> 1 ||| if s.cpu.p.c then 0x80#8 else 0x00#8) → exec i s = done (m.getLsbD 0)) ∧
    ∀ l, storeLoc s2 ea ≠ some l → storeLoc s3 ea ≠ some l → s4.cell l = s.cell l

/-- 43_incdec_shift R356 to R359, 30_encoding R203: after their dummy read the accumulator forms put the
shifted or rotated A in A, set N and Z of it, and C to the bit shifted out; the rotates shift the old C in. -/
def Obligations.AccumulatorShiftsActOnA : Prop :=
  ∀ (s s1 : State) (b : Byte), memRead s.cpu.pc s = .ok b s1 →
    let done : Byte → Bool → Host.Outcome State Fault Refusal := fun r c =>
      .next { s1 with cpu := { s.cpu with a := r, p := { s.cpu.p with c := c, z := decide (r = 0), n := r.getLsbD 7 } } }
    ([Instr.aslAcc, .lsrAcc, .rolAcc, .rorAcc].map encode = [[0x0A], [0x4A], [0x2A], [0x6A]]) ∧
    exec .aslAcc s = done (s.cpu.a <<< 1) (s.cpu.a.getLsbD 7) ∧
    exec .lsrAcc s = done (s.cpu.a >>> 1) (s.cpu.a.getLsbD 0) ∧
    exec .rolAcc s = done (s.cpu.a <<< 1 ||| if s.cpu.p.c then 0x01#8 else 0x00#8) (s.cpu.a.getLsbD 7) ∧
    exec .rorAcc s = done (s.cpu.a >>> 1 ||| if s.cpu.p.c then 0x80#8 else 0x00#8) (s.cpu.a.getLsbD 0)

/-! ### Control transfer and flags -/

/-- 30_encoding R213, 44_control R374 to R381: a branch not taken changes nothing more; a taken one sets PC to next +
sext_16(off8) in one cycle more, two when the target lies on another page. -/
def Obligations.BranchesFollowTheirFlag : Prop :=
  ∀ (s : State) (off8 op : Byte) (i : Instr) (taken : Bool),
    (op, i, taken) ∈ [(0x90#8, Instr.bcc off8, !s.cpu.p.c), (0xB0#8, .bcs off8, s.cpu.p.c),
      (0xF0#8, .beq off8, s.cpu.p.z), (0xD0#8, .bne off8, !s.cpu.p.z), (0x30#8, .bmi off8, s.cpu.p.n),
      (0x10#8, .bpl off8, !s.cpu.p.n), (0x50#8, .bvc off8, !s.cpu.p.v), (0x70#8, .bvs off8, s.cpu.p.v)] →
    encode i = [op, off8] ∧
    (taken = false → exec i s = .next s) ∧
    (taken = true →
      (s.renderingOff ∨ (page s.cpu.pc).toNat < 0x20 ∨ 0x40 ≤ (page s.cpu.pc).toNat) →
      ∃ t, exec i s = .next t ∧ t.cpu = { s.cpu with pc := s.cpu.pc + sext16 off8 } ∧
        t.cycles = s.cycles + (if page (s.cpu.pc + sext16 off8) = page s.cpu.pc then 1 else 2) ∧
        ∀ l, t.cell l = s.cell l)

/-- 44_control R370, R371: JMP absolute sets PC to its operand and nothing else; JMP indirect to the word at its pointer,
whose high byte is read from the same page. -/
def Obligations.JumpsSetPc : Prop :=
  ∀ (s : State) (lo8 hi8 : Byte),
    encode (.jmpAbs lo8 hi8) = [0x4C, lo8, hi8] ∧ encode (.jmpInd lo8 hi8) = [0x6C, lo8, hi8] ∧
    exec (.jmpAbs lo8 hi8) s = .next { s with cpu := { s.cpu with pc := cat16 hi8 lo8 } } ∧
    ∀ (lo hi : Byte) (s1 s2 : State), memRead (cat16 hi8 lo8) s = .ok lo s1 →
      memRead (cat16 hi8 (lo8 + 1#8)) s1 = .ok hi s2 →
      exec (.jmpInd lo8 hi8) s = .next { s2 with cpu := { s.cpu with pc := cat16 hi lo } } ∧ s2.cycles = s.cycles + 2

/-- 44_control R372: JSR pushes PC, the address of its last byte, high byte first; the high byte of the target is the byte
its last cycle reads at PC, after the pushes (log entry 13). -/
def Obligations.JsrPushesItsLastAddress : Prop :=
  ∀ (s : State) (lo8 hi8 : Byte), faultFree s s.cpu.pc → encode (.jsr lo8 hi8) = [0x20, lo8, hi8] ∧
    ∃ t, exec (.jsr lo8 hi8) s = .next t ∧
      t.ram = (s.ram.write (stackCell s.cpu.s) (page s.cpu.pc)).write (stackCell (s.cpu.s - 1#8)) (lowByte s.cpu.pc) ∧
      t.cpu = { s.cpu with s := s.cpu.s - 2#8, pc := cat16 t.busLatch lo8 } ∧ t.cycles = s.cycles + 4 ∧
      (holdsCode s.cpu.pc = true → t.busLatch = readByte { s with ram := t.ram } s.cpu.pc)

/-- 44_control R373: RTS pulls an address, low byte first, and sets PC to it plus one modulo 2^16. -/
def Obligations.RtsReturnsPastThePulledAddress : Prop :=
  ∀ s : State,
    let ret := cat16 (s.ram.read (stackCell (s.cpu.s + 2#8))) (s.ram.read (stackCell (s.cpu.s + 1#8)))
    (s.renderingOff ∨ ((∀ r, decodeAddr s.cpu.pc ≠ .ppu r) ∧ ∀ r, decodeAddr ret ≠ .ppu r)) →
    encode .rts = [0x60] ∧ ∃ t, exec .rts s = .next t ∧ t.cpu = { s.cpu with s := s.cpu.s + 2#8, pc := ret + 1#16 } ∧
      t.ram = s.ram ∧ t.cycles = s.cycles + 5

/-- 44_control R382, 60_exceptions R620: BRK completes in every state, whatever I holds: it pushes PC (its opcode's address
plus 2, once its padding byte is fetched) and the image of P with B = 1, sets I, and takes PC from 0xFFFE. -/
def Obligations.BrkTakesTheTrap : Prop :=
  ∀ (s : State) (padding : Byte), encode (.brk padding) = [0x00, padding] ∧ ∃ t, exec (.brk padding) s = .next t ∧ tookException true 0xFFFE#16 s t ∧
    t.cycles = s.cycles + 5 ∧ (pImage s.cpu.p true).getLsbD 4 = true

/-- 44_control R383: RTI sets the six flags from the pulled byte as PLP does, then PC from the two bytes above it. -/
def Obligations.RtiRestoresFlagsAndPc : Prop :=
  ∀ s : State, faultFree s s.cpu.pc →
    let b := s.ram.read (stackCell (s.cpu.s + 1#8))
    encode .rti = [0x40] ∧ ∃ t, exec .rti s = .next t ∧ t.ram = s.ram ∧ t.cycles = s.cycles + 5 ∧
      t.cpu = { s.cpu with
        s := s.cpu.s + 3#8
        p := { c := b.getLsbD 0, z := b.getLsbD 1, i := b.getLsbD 2
               d := b.getLsbD 3, v := b.getLsbD 6, n := b.getLsbD 7 }
        pc := cat16 (s.ram.read (stackCell (s.cpu.s + 3#8))) (s.ram.read (stackCell (s.cpu.s + 2#8))) }

/-- 45_flags R390 to R396, 44_control R384: each flag instruction changes its flag alone, and NOP nothing, after the dummy
read, its one cycle past the fetch of its one byte. -/
def Obligations.FlagInstructionsChangeTheirFlag : Prop :=
  ∀ (s s1 : State) (b : Byte), memRead s.cpu.pc s = .ok b s1 →
    let done : Flags → Host.Outcome State Fault Refusal := fun p => .next { s1 with cpu := { s.cpu with p := p } }
    ([Instr.clc, .sec, .cli, .sei, .cld, .sed, .clv, .nop].map encode =
      [[0x18], [0x38], [0x58], [0x78], [0xD8], [0xF8], [0xB8], [0xEA]]) ∧ s1.cycles = s.cycles + 1 ∧
    exec .clc s = done { s.cpu.p with c := false } ∧ exec .sec s = done { s.cpu.p with c := true } ∧
    exec .cli s = done { s.cpu.p with i := false } ∧ exec .sei s = done { s.cpu.p with i := true } ∧
    exec .cld s = done { s.cpu.p with d := false } ∧ exec .sed s = done { s.cpu.p with d := true } ∧
    exec .clv s = done { s.cpu.p with v := false } ∧ exec .nop s = done s.cpu.p

/-! ### Interrupts -/

/-- 60_exceptions R610, R612, R613, R614: at a boundary a pending NMI is taken whatever I holds, through 0xFFFA; without one,
IRQ is taken when its input is low and I is 0, through 0xFFFE; the entry pushes PC and the image of P with B = 0, sets I, and
takes 7 cycles. Taking an NMI clears its request, before the entry: the request is clear afterwards when NMI is disabled, or
when no vertical blank began during the entry (its `frame_ready` pulses are the list of log entry 11), and set again when one
began with NMI enabled and the line low. -/
def Obligations.InterruptsAreTakenAtTheBoundary : Prop :=
  ∀ s : State, s.fault = none → s.inputs.resetReq = false → faultFree s s.cpu.pc →
    (s.nmi.pending = true → ∃ t, step s = .next t ∧ tookException false 0xFFFA#16 s t ∧ t.cycles = s.cycles + 7 ∧
      (s.ppu.ctrl.getLsbD 7 = false → t.nmi = { linePrev := false, pending := false }) ∧
      (s.nmi.linePrev = s.ppu.nmiLine → t.framePulses = [] → t.nmi.pending = false) ∧
      (s.nmi.linePrev = false → s.ppu.vbl = false → s.ppu.ctrl.getLsbD 7 = true → t.framePulses ≠ [] →
        t.nmi.pending = true)) ∧
    (s.nmi.pending = false → s.inputs.irqN = false → s.cpu.p.i = false →
      ∃ t, step s = .next t ∧ tookException false 0xFFFE#16 s t ∧ t.cycles = s.cycles + 7)

/-- 60_exceptions R614, R617, 44_control R372, R373, R382, R383: whatever a handler did elsewhere, RTI with S and the three
stack cells of an interrupt entry as the entry left them resumes the interrupted instruction, with all six flags and S as
they were, and so does RTI after a BRK, past its padding byte; whatever a subroutine did elsewhere, RTS with S and the two
stack cells of its JSR as the JSR left them goes to the instruction after the JSR, with S as it was. -/
def Obligations.ReturnsUndoTheirEntries : Prop :=
  ∀ s t u v : State, u.cpu.s = t.cpu.s →
    (∀ vec : Word, enter vec s = .ok () t →
      (∀ k ∈ [s.cpu.s, s.cpu.s - 1#8, s.cpu.s - 2#8], u.ram.read (stackCell k) = t.ram.read (stackCell k)) →
      exec .rti u = .next v → v.cpu.pc = s.cpu.pc ∧ v.cpu.p = s.cpu.p ∧ v.cpu.s = s.cpu.s) ∧
    (∀ padding : Byte, exec (.brk padding) s = .next t →
      (∀ k ∈ [s.cpu.s, s.cpu.s - 1#8, s.cpu.s - 2#8], u.ram.read (stackCell k) = t.ram.read (stackCell k)) →
      exec .rti u = .next v → v.cpu.pc = s.cpu.pc ∧ v.cpu.p = s.cpu.p ∧ v.cpu.s = s.cpu.s) ∧
    ∀ lo8 hi8 : Byte, exec (.jsr lo8 hi8) s = .next t →
      (∀ k ∈ [s.cpu.s, s.cpu.s - 1#8], u.ram.read (stackCell k) = t.ram.read (stackCell k)) →
      exec .rts u = .next v → v.cpu.pc = s.cpu.pc + 1#16 ∧ v.cpu.s = s.cpu.s

/-! ### The bus -/

/-- 20_memory R104, R105: a RAM address reads and writes the cell of its low 11 bits, with no effect but the latch and the
cycle; a byte written is read back at every address that mirrors it, and every RAM address that does not reads as before.
The PPU registers repeat every 8 addresses, for reads, writes and the faults of both. -/
def Obligations.RamAndRegistersAreMirrored : Prop :=
  (∀ (s : State) (a : Word) (d : Byte), a.toNat ≤ 0x1FFF →
    let b := s.ram.read (a.toNat % 0x800)
    memRead a s = .ok b (endCycle { s with busLatch := b }) ∧
    memWrite a d s = .ok () (endCycle { s with ram := s.ram.write (a.toNat % 0x800) d, busLatch := d })) ∧
  (∀ (s : State) (a b : Word) (d : Byte), a.toNat ≤ 0x1FFF → b.toNat ≤ 0x1FFF →
    ∃ t, memWrite a d s = .ok () t ∧
      readByte t b = if b.toNat % 0x800 = a.toNat % 0x800 then d else readByte s b) ∧
  ∀ (s : State) (a b : Word) (d : Byte), 0x2000 ≤ a.toNat → a.toNat ≤ 0x3FFF → 0x2000 ≤ b.toNat → b.toNat ≤ 0x3FFF →
    a.toNat % 8 = b.toNat % 8 → memRead a s = memRead b s ∧ memWrite a d s = memWrite b d s

/-- 20_memory R106, R107: PRG ROM is read at its index modulo its length, and a write there changes only the bus latch and
the time. -/
def Obligations.PrgRomIsReadOnly : Prop :=
  ∀ (s : State) (a : Word) (d : Byte), 0x8000 ≤ a.toNat →
    (∃ t, memRead a s = .ok (s.board.prg.read
      (match s.board.prgSize with
        | .k16 => a.toNat % 0x4000
        | .k32 => a.toNat % 0x8000)) t) ∧
    memWrite a d s = .ok () (endCycle { s with busLatch := d })

/-- 20_memory R108, R110, R111, R112: an unmapped read gives the bus latch in Latch mode and 0x00 in Zero mode, which the latch then
holds; 0x4017 keeps the top three bits; an unmapped write is ignored; 0x4014 reads so too, and a write there requests the DMA of its
page. -/
def Obligations.UnmappedAddressesAreOpenBus : Prop :=
  ∀ (s : State) (a : Word) (d : Byte),
    let open_ := match s.board.openBus with
      | .latch => s.busLatch
      | .zero => 0x00#8
    ((0x4000 ≤ a.toNat ∧ a.toNat ≤ 0x4013) ∨ a.toNat = 0x4015 ∨ (0x4018 ≤ a.toNat ∧ a.toNat ≤ 0x7FFF) →
      memRead a s = .ok open_ (endCycle { s with busLatch := open_ }) ∧
      memWrite a d s = .ok () (endCycle { s with busLatch := d })) ∧
    (a.toNat = 0x4017 →
      memRead a s = .ok (open_ &&& 0xE0#8) (endCycle { s with busLatch := open_ &&& 0xE0#8 }) ∧
      memWrite a d s = .ok () (endCycle { s with busLatch := d })) ∧
    memRead 0x4014#16 s = .ok open_ (endCycle { s with busLatch := open_ }) ∧
    memWrite 0x4014#16 d s = .ok () (endCycle { s with dmaRequest := some d, busLatch := d })

/-- 20_memory R145, R146: a strobe write of 1 then 0 samples the buttons, and from then on the k-th read of 0x4016 (from 0)
returns in bit 0 the k-th button in the order A, B, Select, Start, Up, Down, Left, Right, and 1 from the ninth read on, under
the open-bus bits 7:5; while the strobe is held every read returns A. The buttons are an input held in State (log entry
6). -/
def Obligations.ControllerShiftsOutTheButtons : Prop :=
  ∀ (s : State) (k : Nat),
    let b := s.inputs.buttons
    let held := afterWrite s 0x4016#16 0x01#8
    let sampled := afterWrite held 0x4016#16 0x00#8
    (readByte (padReads k sampled) 0x4016#16).getLsbD 0 =
      [b.a, b.b, b.select, b.start, b.up, b.down, b.left, b.right].getD k true ∧
    (readByte (padReads k held) 0x4016#16).getLsbD 0 = b.a ∧
    readByte s 0x4016#16 = (cpuOpen s &&& 0xE0#8) ||| (readByte s 0x4016#16 &&& 0x01#8)

/-! ### The PPU's register port -/

/-- 20_memory R122, R131: a PPUSTATUS read returns vbl, s0hit and sovf above five open-bus bits, and clears vbl and w; a
request already latched stays. -/
def Obligations.StatusReadClearsVblAndToggle : Prop :=
  ∀ s : State,
    (readByte s 0x2002#16).getLsbD 7 = s.ppu.vbl ∧ (readByte s 0x2002#16).getLsbD 6 = s.ppu.s0hit ∧
    (readByte s 0x2002#16).getLsbD 5 = s.ppu.sovf ∧
    (readByte s 0x2002#16).extractLsb' 0 5 = (openValue s.board s.ppu.ioLatch).extractLsb' 0 5 ∧
    (afterRead s 0x2002#16).ppu = { s.ppu with vbl := false, w := false, ioLatch := readByte s 0x2002#16 } ∧
    (afterRead s 0x2002#16).nmi = { linePrev := false, pending := s.nmi.pending }

/-- 60_exceptions R610, 20_memory R120: the edge check latches a request exactly when the line `vbl ∧ PPUCTRL[7]` is 1 and its
last checked level was 0, keeps one already latched, and records the level; it runs after every dot, after a PPUCTRL write
and after a PPUSTATUS read. A PPUCTRL write stores the byte, copies its bits 1:0 to t[11:10] and nothing else of t, so it
raises a request at once when it enables the NMI while vbl is 1 and the line was low. -/
def Obligations.NmiEdgeIsLatched : Prop :=
  ∀ (s : State) (d : Byte),
    let latched : NmiUnit → Bool → Bool → NmiUnit := fun n vbl enable =>
      { linePrev := vbl && enable, pending := n.pending || (vbl && enable && !n.linePrev) }
    let t := afterWrite s 0x2000#16 d
    (nmiCheck s = { s with nmi := latched s.nmi s.ppu.vbl (s.ppu.ctrl.getLsbD 7) }) ∧
    (tick s).nmi = latched s.nmi (tick s).ppu.vbl (s.ppu.ctrl.getLsbD 7) ∧
    t.nmi = latched s.nmi s.ppu.vbl (d.getLsbD 7) ∧
    (afterRead s 0x2002#16).nmi = latched s.nmi false (s.ppu.ctrl.getLsbD 7) ∧
    t.ppu = { s.ppu with ctrl := d, t := t.ppu.t, ioLatch := d } ∧ t.ppu.t.extractLsb' 10 2 = d.extractLsb' 0 2 ∧
    t.ppu.t.extractLsb' 0 10 = s.ppu.t.extractLsb' 0 10 ∧ t.ppu.t.extractLsb' 12 3 = s.ppu.t.extractLsb' 12 3 ∧
    (s.nmi.linePrev = false → s.ppu.vbl = true → d.getLsbD 7 = true → t.nmi.pending = true)

/-- 20_memory R126, R129: with the toggle clear, a PPUSCROLL write sets coarse X and fine X and a PPUADDR write the high six
bits of the 14-bit address and clears t[14]; with it set, a PPUSCROLL write sets fine Y and coarse Y, and a PPUADDR write the
low byte and loads v from t; each flips the toggle and leaves every other bit of v, t and x alone. Two PPUADDR writes after
a cleared toggle so load v with the 14-bit address, high byte first. -/
def Obligations.WriteTwiceRegistersAssembleTheirPair : Prop :=
  ∀ (s : State) (d : Byte),
    let p := s.ppu
    let q := (afterWrite s 0x2005#16 d).ppu
    let r := (afterWrite s 0x2006#16 d).ppu
    (p.w = false →
      (q = { p with t := q.t, x := d.extractLsb' 0 3, w := true, ioLatch := d } ∧ coarseX q.t = d.extractLsb' 3 5 ∧
        q.t.extractLsb' 5 10 = p.t.extractLsb' 5 10) ∧
      (r = { p with t := r.t, w := true, ioLatch := d } ∧ r.t.extractLsb' 8 6 = d.extractLsb' 0 6 ∧
        r.t.getLsbD 14 = false ∧ r.t.extractLsb' 0 8 = p.t.extractLsb' 0 8)) ∧
    (p.w = true →
      (q = { p with t := q.t, w := false, ioLatch := d } ∧ fineY q.t = d.extractLsb' 0 3 ∧
        coarseY q.t = d.extractLsb' 3 5 ∧ coarseX q.t = coarseX p.t ∧ nametableSelect q.t = nametableSelect p.t) ∧
      (r = { p with t := r.t, v := r.t, w := false, ioLatch := d } ∧ r.t.extractLsb' 0 8 = d ∧
        r.t.extractLsb' 8 7 = p.t.extractLsb' 8 7)) ∧
    ∀ d2 : Byte, p.w = false →
      (afterWrite (afterWrite s 0x2006#16 d) 0x2006#16 d2).ppu.v = (cat16 (d &&& 0x3F#8) d2).setWidth 15

/-- 20_memory R127, R128: while `in_render` holds a PPUDATA access raises UnmodelledRenderingAccess with the register, the
direction, the scanline and the dot, and changes nothing else (60_exceptions R651). Otherwise a read below 0x3F00 returns
the buffer and refills it with what is at the address v presents, the CHR byte below 0x2000 and the VRAM cell of the
nametable transform from there on (R116), a palette read returns the cell under two open-bus bits and fills the buffer with
the VRAM cell 0x1000 below, a write stores through the PPU space (nothing below 0x2000, VRAM below 0x3F00, six bits
in a palette cell) and keeps the buffer; each adds the increment to v modulo 2^15. -/
def Obligations.PpuDataMovesTheBufferAndTheAddress : Prop :=
  ∀ (s : State) (d : Byte),
    let p := s.ppu
    let a : Word := (p.v.setWidth 14).setWidth 16
    let v : BitVec 15 := p.v + if p.ctrl.getLsbD 2 then 32#15 else 1#15
    let raised := fun dir => FaultRecord.unmodelledRenderingAccess .ppudata dir p.scanline p.dot
    let written := (afterWrite s 0x2007#16 d).ppu
    (p.inRender = true →
      memRead 0x2007#16 s = .error (raised .read) { s with fault := some (raised .read) } ∧
      memWrite 0x2007#16 d s = .error (raised .write) { s with fault := some (raised .write) }) ∧
    (p.inRender = false →
      readFault s 0x2007#16 = none ∧ writeFault s 0x2007#16 = none ∧
      (a.toNat < 0x2000 → readByte s 0x2007#16 = p.readBuffer ∧
        (afterRead s 0x2007#16).ppu = { p with readBuffer := s.board.chr.read a.toNat, v := v, ioLatch := p.readBuffer }) ∧
      (0x2000 ≤ a.toNat → a.toNat < 0x3F00 → readByte s 0x2007#16 = p.readBuffer ∧
        (afterRead s 0x2007#16).ppu =
          { p with readBuffer := p.vram.read (ntIndex s.board.mirroring a), v := v, ioLatch := p.readBuffer }) ∧
      (0x3F00 ≤ a.toNat →
        readByte s 0x2007#16 = ((openValue s.board p.ioLatch &&& 0xC0#8) ||| (p.pal.read (palIndex a)).setWidth 8) ∧
        (afterRead s 0x2007#16).ppu =
          { p with readBuffer := p.vram.read (ntIndex s.board.mirroring (a - 0x1000#16)), v := v,
                   ioLatch := readByte s 0x2007#16 }) ∧
      (a.toNat < 0x2000 → written = { p with v := v, ioLatch := d }) ∧
      (0x2000 ≤ a.toNat → a.toNat < 0x3F00 →
        written = { p with vram := p.vram.write (ntIndex s.board.mirroring a) d, v := v, ioLatch := d }) ∧
      (0x3F00 ≤ a.toNat →
        written = { p with pal := p.pal.write (palIndex a) (d.setWidth 6), v := v, ioLatch := d }))

/-- 20_memory R117, R118, R119: horizontal mirroring makes 0x2000 and 0x2400 the same cell and 0x2800 another, vertical
mirroring 0x2000 and 0x2800 the same and 0x2400 another, and 0x3000..0x3EFF repeats 0x2000..0x2EFF. The palette repeats
every 32 bytes, the four sprite background entries are the background ones' cells and no other two entries share a cell, and
a cell keeps six bits. -/
def Obligations.NametablesAndPaletteAreMirrored : Prop :=
  (∀ off : Nat, off < 0x400 →
    ntIndex .horizontal (BitVec.ofNat 16 (0x2000 + off)) = off ∧
    ntIndex .horizontal (BitVec.ofNat 16 (0x2400 + off)) = off ∧
    ntIndex .horizontal (BitVec.ofNat 16 (0x2800 + off)) = 0x400 + off ∧
    ntIndex .horizontal (BitVec.ofNat 16 (0x2C00 + off)) = 0x400 + off ∧
    ntIndex .vertical (BitVec.ofNat 16 (0x2000 + off)) = off ∧
    ntIndex .vertical (BitVec.ofNat 16 (0x2400 + off)) = 0x400 + off ∧
    ntIndex .vertical (BitVec.ofNat 16 (0x2800 + off)) = off ∧
    ntIndex .vertical (BitVec.ofNat 16 (0x2C00 + off)) = 0x400 + off) ∧
  (∀ (m : Mirroring) (k : Nat), k < 0xF00 →
    ntIndex m (BitVec.ofNat 16 (0x3000 + k)) = ntIndex m (BitVec.ofNat 16 (0x2000 + k))) ∧
  (∀ i : Nat, i < 32 → ∀ k : Nat, k < 8 →
    palIndex (BitVec.ofNat 16 (0x3F00 + 32 * k + i)) = if 16 ≤ i ∧ i % 4 = 0 then i - 16 else i) ∧
  ∀ (b : Board) (p : Ppu) (a : Word) (d : Byte), 0x3F00 ≤ a.toNat → a.toNat ≤ 0x3FFF →
    ppuSpaceRead b (ppuSpaceWrite b p a d) a = d &&& 0x3F#8

/-- 20_memory R124, R125: while `in_render` holds an OAMDATA write raises UnmodelledRenderingAccess with the register, the
direction, the scanline and the dot, and changes nothing else. Otherwise it stores the byte, its bits 4:2 dropped in an
attribute byte, and steps OAMADDR modulo 256; a read returns the cell. No read steps OAMADDR or faults. -/
def Obligations.OamDataStoresAndSteps : Prop :=
  ∀ (s : State) (d : Byte),
    let t := afterWrite s 0x2004#16 d
    let raised := FaultRecord.unmodelledRenderingAccess .oamdata .write s.ppu.scanline s.ppu.dot
    readFault s 0x2004#16 = none ∧
    (afterRead s 0x2004#16).ppu = { s.ppu with ioLatch := readByte s 0x2004#16 } ∧
    (s.ppu.inRender = true → memWrite 0x2004#16 d s = .error raised { s with fault := some raised }) ∧
    (s.ppu.inRender = false →
      writeFault s 0x2004#16 = none ∧ t.ppu.oamAddr = s.ppu.oamAddr + 1#8 ∧
      (∀ i, t.ppu.oam.read i = if i = s.ppu.oamAddr.toNat then
        (if s.ppu.oamAddr.toNat % 4 = 2 then d &&& 0xE3#8 else d) else s.ppu.oam.read i) ∧
      readByte s 0x2004#16 = s.ppu.oam.read s.ppu.oamAddr.toNat)

/-- 20_memory R121, R123, R130, R131: a PPUMASK and an OAMADDR write set their register; a read of the write-only registers 0,
1, 3, 5 and 6 returns the open-bus value and changes nothing but the I/O latch, a write to PPUSTATUS nothing but that latch;
and every read and every write of a PPU register leaves its byte in the latch. -/
def Obligations.PlainWritesStoreAndWrongDirectionsOnlyLatch : Prop :=
  ∀ (s : State) (d : Byte),
    afterWrite s 0x2001#16 d = { s with ppu := { s.ppu with mask := d, ioLatch := d } } ∧
    afterWrite s 0x2003#16 d = { s with ppu := { s.ppu with oamAddr := d, ioLatch := d } } ∧
    (∀ a ∈ [0x2000#16, 0x2001#16, 0x2003#16, 0x2005#16, 0x2006#16],
      readFault s a = none ∧ readByte s a = openValue s.board s.ppu.ioLatch ∧
      afterRead s a = { s with ppu := { s.ppu with ioLatch := openValue s.board s.ppu.ioLatch } }) ∧
    afterWrite s 0x2002#16 d = { s with ppu := { s.ppu with ioLatch := d } } ∧
    ∀ a : Word, 0x2000 ≤ a.toNat → a.toNat ≤ 0x3FFF →
      (afterWrite s a d).ppu.ioLatch = d ∧ (afterRead s a).ppu.ioLatch = readByte s a

/-! ### The sequencer and the DMA -/

/-- 60_exceptions R601, R602, R603: with rendering disabled a frame is 89342 dots: that many dots bring the counters back to
where they were, with the frame's parity the other one. -/
def Obligations.FrameIsItsDots : Prop :=
  ∀ s : State, s.ppu.countersOk → s.renderingOff →
    (ticks (341 * 262) s).ppu.scanline = s.ppu.scanline ∧ (ticks (341 * 262) s).ppu.dot = s.ppu.dot ∧
    (ticks (341 * 262) s).ppu.oddFrame = !s.ppu.oddFrame

/-- 60_exceptions R603, R604, R605, R608: as dot 339 of scanline 261 is left, the next dot is (0, 0) of an even frame exactly when
the frame is odd and rendering is enabled, and (261, 340) otherwise. The dot that reaches (241, 1) sets vbl and records a
`frame_ready` pulse for its cycle, the dot that reaches (261, 1) clears vbl, s0hit and sovf, and no other dot changes vbl,
records a pulse or clears s0hit or sovf; and those two are set only at dots 1 to 256 of scanlines 0 to 239 with rendering
enabled (R608). The list of pulses is the model's form of the output (log entry 11). -/
def Obligations.VblankAndTheSkipFollowTheCounters : Prop :=
  ∀ s : State,
    let t := tick s
    (s.ppu.scanline = 261 → s.ppu.dot = 339 →
      if s.ppu.oddFrame = true ∧ s.ppu.renderingEnabled = true
      then t.ppu.scanline = 0 ∧ t.ppu.dot = 0 ∧ t.ppu.oddFrame = false
      else t.ppu.scanline = 261 ∧ t.ppu.dot = 340 ∧ t.ppu.oddFrame = s.ppu.oddFrame) ∧
    (t.ppu.scanline = 241 → t.ppu.dot = 1 → t.ppu.vbl = true ∧ t.framePulses = s.cycles :: s.framePulses) ∧
    (t.ppu.scanline = 261 → t.ppu.dot = 1 → t.ppu.vbl = false ∧ t.ppu.s0hit = false ∧ t.ppu.sovf = false) ∧
    (¬ (t.ppu.scanline = 241 ∧ t.ppu.dot = 1) → t.framePulses = s.framePulses) ∧
    (¬ (t.ppu.scanline = 241 ∧ t.ppu.dot = 1) → ¬ (t.ppu.scanline = 261 ∧ t.ppu.dot = 1) → t.ppu.vbl = s.ppu.vbl) ∧
    (¬ (t.ppu.scanline = 261 ∧ t.ppu.dot = 1) →
      (s.ppu.s0hit = true → t.ppu.s0hit = true) ∧ (s.ppu.sovf = true → t.ppu.sovf = true)) ∧
    (¬ (s.ppu.renderingEnabled = true ∧ t.ppu.scanline ≤ 239 ∧ 1 ≤ t.ppu.dot ∧ t.ppu.dot ≤ 256) →
      (t.ppu.s0hit = true → s.ppu.s0hit = true) ∧ (t.ppu.sovf = true → s.ppu.sovf = true))

/-- 60_exceptions R606, R607: a dot moves `v` and OAMADDR only on a rendering line with rendering enabled. There OAMADDR
becomes 0 at each of dots 257 to 320 and stays at every other; `v` takes IncCoarseX at the dots divisible by 8 of 1 to 256
and 321 to 336, and IncY after it at dot 256, the horizontal fields of `t` at dot 257, the vertical ones at dots 280 to 304
of scanline 261, and stays at every other dot. IncCoarseX steps the column and, past 31, flips the horizontal nametable;
IncY steps the fine row, past 7 the row, and past row 29 flips the vertical nametable; every other field of `v` stays. -/
def Obligations.RenderingMovesTheScrollAddress : Prop :=
  (∀ s : State,
    let p := s.ppu
    let q := (tick s).ppu
    let steps := ((1 ≤ q.dot ∧ q.dot ≤ 256) ∨ (321 ≤ q.dot ∧ q.dot ≤ 336)) ∧ q.dot % 8 = 0
    let vertical := q.scanline = 261 ∧ 280 ≤ q.dot ∧ q.dot ≤ 304
    (q.inRender = false → q.v = p.v ∧ q.oamAddr = p.oamAddr) ∧
    (q.inRender = true →
      q.oamAddr = (if 257 ≤ q.dot ∧ q.dot ≤ 320 then 0 else p.oamAddr) ∧
      (steps → q.v = if q.dot = 256 then incY (incCoarseX p.v) else incCoarseX p.v) ∧
      (q.dot = 257 →
        coarseX q.v = coarseX p.t ∧ q.v.getLsbD 10 = p.t.getLsbD 10 ∧
        coarseY q.v = coarseY p.v ∧ fineY q.v = fineY p.v ∧ q.v.getLsbD 11 = p.v.getLsbD 11) ∧
      (vertical →
        coarseY q.v = coarseY p.t ∧ fineY q.v = fineY p.t ∧ q.v.getLsbD 11 = p.t.getLsbD 11 ∧
        coarseX q.v = coarseX p.v ∧ q.v.getLsbD 10 = p.v.getLsbD 10) ∧
      (¬ steps → q.dot ≠ 257 → ¬ vertical → q.v = p.v))) ∧
  ∀ v : BitVec 15,
    coarseX (incCoarseX v) = coarseX v + 1#5 ∧
    ((incCoarseX v).getLsbD 10 = (v.getLsbD 10 ^^ decide (coarseX v = 31#5))) ∧
    coarseY (incCoarseX v) = coarseY v ∧ fineY (incCoarseX v) = fineY v ∧ (incCoarseX v).getLsbD 11 = v.getLsbD 11 ∧
    fineY (incY v) = fineY v + 1#3 ∧ coarseX (incY v) = coarseX v ∧ (incY v).getLsbD 10 = v.getLsbD 10 ∧
    coarseY (incY v) = (if fineY v = 7#3 then (if coarseY v = 29#5 then 0#5 else coarseY v + 1#5) else coarseY v) ∧
    ((incY v).getLsbD 11 = (v.getLsbD 11 ^^ decide (fineY v = 7#3 ∧ coarseY v = 29#5)))

/-- 20_memory R140, R141: at the end of an instruction the requested page's transfer runs, and nothing when none is
requested. The transfer consumes the request, takes one idle cycle and one more when it starts on an odd cycle, then 256
pairs of a bus read of the page and an OAMDATA write, whatever the page is. From a page of RAM or PRG ROM, with rendering
disabled, or enabled when it starts in vertical blank or the line before and its last write comes before the pre-render line
(20_memory R133, 70_reset_and_hazards R723), it takes 513 or 514 cycles, fills all of OAM in order from OAMADDR on, each
attribute byte without its unimplemented bits, and leaves OAMADDR, RAM and the CPU as they were and no DMA requested. -/
def Obligations.OamDmaCopiesItsPage : Prop :=
  ∀ (s : State) (p : Byte),
    (s.dmaRequest = none → runRequestedDma s = .ok () s) ∧
    (s.dmaRequest = some p → runRequestedDma s = runDma p s) ∧
    (runDma p s =
      (do
        idle
        if s.cycles % 2 = 1 then idle
        (List.range 256).forM fun i => do
          let b ← memRead (cat16 p (BitVec.ofNat 8 i))
          memWrite 0x2004#16 b : M Unit) { s with dmaRequest := none }) ∧
    let n := if s.cycles % 2 = 1 then 514 else 513
    (p.toNat < 0x20 ∨ 0x80 ≤ p.toNat) →
    (s.renderingOff ∨ (240 ≤ s.ppu.scanline ∧ s.ppu.dot ≤ 340 ∧
      s.ppu.scanline * 341 + s.ppu.dot + 3 * (n - 1) < 261 * 341)) →
    ∃ t, runDma p s = .ok () t ∧ t.cycles = s.cycles + n ∧
      t.dmaRequest = none ∧ t.cpu = s.cpu ∧ t.ram = s.ram ∧ t.ppu.oamAddr = s.ppu.oamAddr ∧
      ∀ i : Nat, i < 256 →
        let cell := (s.ppu.oamAddr.toNat + i) % 256
        t.ppu.oam.read cell = oamMask cell (readByte s (cat16 p (BitVec.ofNat 8 i)))
end

