-- ==== Sys2Proof/Laws/State.lean ====
section
/-! SUPPORT. What each named update of the state leaves as it was, one lemma per field: the sequencer's dot, the edge check,
the end of a cycle, the I/O latch, the reset's registers. -/

namespace Sys2Proof.Machine

@[simp] theorem nmiCheck_cpu (s : State) : (nmiCheck s).cpu = s.cpu := rfl
@[simp] theorem nmiCheck_cycles (s : State) : (nmiCheck s).cycles = s.cycles := rfl
@[simp] theorem nmiCheck_busLatch (s : State) : (nmiCheck s).busLatch = s.busLatch := rfl
@[simp] theorem nmiCheck_dmaRequest (s : State) : (nmiCheck s).dmaRequest = s.dmaRequest := rfl
@[simp] theorem nmiCheck_pad (s : State) : (nmiCheck s).pad = s.pad := rfl
@[simp] theorem nmiCheck_ram (s : State) : (nmiCheck s).ram = s.ram := rfl
@[simp] theorem nmiCheck_ppu (s : State) : (nmiCheck s).ppu = s.ppu := rfl
@[simp] theorem nmiCheck_fault (s : State) : (nmiCheck s).fault = s.fault := rfl
@[simp] theorem nmiCheck_board (s : State) : (nmiCheck s).board = s.board := rfl
@[simp] theorem nmiCheck_inputs (s : State) : (nmiCheck s).inputs = s.inputs := rfl
@[simp] theorem nmiCheck_framePulses (s : State) : (nmiCheck s).framePulses = s.framePulses := rfl
@[simp] theorem nmiCheck_draws (s : State) : (nmiCheck s).draws = s.draws := rfl

@[simp] theorem ppuDot_cpu (s : State) : (ppuDot s).cpu = s.cpu := rfl
@[simp] theorem ppuDot_cycles (s : State) : (ppuDot s).cycles = s.cycles := rfl
@[simp] theorem ppuDot_busLatch (s : State) : (ppuDot s).busLatch = s.busLatch := rfl
@[simp] theorem ppuDot_nmi (s : State) : (ppuDot s).nmi = s.nmi := rfl
@[simp] theorem ppuDot_dmaRequest (s : State) : (ppuDot s).dmaRequest = s.dmaRequest := rfl
@[simp] theorem ppuDot_pad (s : State) : (ppuDot s).pad = s.pad := rfl
@[simp] theorem ppuDot_ram (s : State) : (ppuDot s).ram = s.ram := rfl
@[simp] theorem ppuDot_fault (s : State) : (ppuDot s).fault = s.fault := rfl
@[simp] theorem ppuDot_board (s : State) : (ppuDot s).board = s.board := rfl
@[simp] theorem ppuDot_inputs (s : State) : (ppuDot s).inputs = s.inputs := rfl

@[simp] theorem tick_cpu (s : State) : (tick s).cpu = s.cpu := rfl
@[simp] theorem tick_cycles (s : State) : (tick s).cycles = s.cycles := rfl
@[simp] theorem tick_busLatch (s : State) : (tick s).busLatch = s.busLatch := rfl
@[simp] theorem tick_dmaRequest (s : State) : (tick s).dmaRequest = s.dmaRequest := rfl
@[simp] theorem tick_pad (s : State) : (tick s).pad = s.pad := rfl
@[simp] theorem tick_ram (s : State) : (tick s).ram = s.ram := rfl
@[simp] theorem tick_fault (s : State) : (tick s).fault = s.fault := rfl
@[simp] theorem tick_board (s : State) : (tick s).board = s.board := rfl
@[simp] theorem tick_inputs (s : State) : (tick s).inputs = s.inputs := rfl

@[simp] theorem endCycle_cpu (s : State) : (endCycle s).cpu = s.cpu := rfl
@[simp] theorem endCycle_busLatch (s : State) : (endCycle s).busLatch = s.busLatch := rfl
@[simp] theorem endCycle_dmaRequest (s : State) : (endCycle s).dmaRequest = s.dmaRequest := rfl
@[simp] theorem endCycle_pad (s : State) : (endCycle s).pad = s.pad := rfl
@[simp] theorem endCycle_ram (s : State) : (endCycle s).ram = s.ram := rfl
@[simp] theorem endCycle_fault (s : State) : (endCycle s).fault = s.fault := rfl
@[simp] theorem endCycle_board (s : State) : (endCycle s).board = s.board := rfl
@[simp] theorem endCycle_inputs (s : State) : (endCycle s).inputs = s.inputs := rfl

@[simp] theorem endCycle_cycles (s : State) : (endCycle s).cycles = s.cycles + 1 := rfl

@[simp] theorem setIoLatch_cpu (d : Byte) (s : State) : (setIoLatch d s).cpu = s.cpu := rfl
@[simp] theorem setIoLatch_cycles (d : Byte) (s : State) : (setIoLatch d s).cycles = s.cycles := rfl
@[simp] theorem setIoLatch_busLatch (d : Byte) (s : State) : (setIoLatch d s).busLatch = s.busLatch := rfl
@[simp] theorem setIoLatch_nmi (d : Byte) (s : State) : (setIoLatch d s).nmi = s.nmi := rfl
@[simp] theorem setIoLatch_dmaRequest (d : Byte) (s : State) : (setIoLatch d s).dmaRequest = s.dmaRequest := rfl
@[simp] theorem setIoLatch_pad (d : Byte) (s : State) : (setIoLatch d s).pad = s.pad := rfl
@[simp] theorem setIoLatch_ram (d : Byte) (s : State) : (setIoLatch d s).ram = s.ram := rfl
@[simp] theorem setIoLatch_fault (d : Byte) (s : State) : (setIoLatch d s).fault = s.fault := rfl
@[simp] theorem setIoLatch_board (d : Byte) (s : State) : (setIoLatch d s).board = s.board := rfl
@[simp] theorem setIoLatch_inputs (d : Byte) (s : State) : (setIoLatch d s).inputs = s.inputs := rfl
@[simp] theorem setIoLatch_framePulses (d : Byte) (s : State) : (setIoLatch d s).framePulses = s.framePulses := rfl
@[simp] theorem setIoLatch_draws (d : Byte) (s : State) : (setIoLatch d s).draws = s.draws := rfl
@[simp] theorem setIoLatch_ppu_ctrl (d : Byte) (s : State) : (setIoLatch d s).ppu.ctrl = s.ppu.ctrl := rfl
@[simp] theorem setIoLatch_ppu_mask (d : Byte) (s : State) : (setIoLatch d s).ppu.mask = s.ppu.mask := rfl
@[simp] theorem setIoLatch_ppu_vbl (d : Byte) (s : State) : (setIoLatch d s).ppu.vbl = s.ppu.vbl := rfl
@[simp] theorem setIoLatch_ppu_s0hit (d : Byte) (s : State) : (setIoLatch d s).ppu.s0hit = s.ppu.s0hit := rfl
@[simp] theorem setIoLatch_ppu_sovf (d : Byte) (s : State) : (setIoLatch d s).ppu.sovf = s.ppu.sovf := rfl
@[simp] theorem setIoLatch_ppu_oamAddr (d : Byte) (s : State) : (setIoLatch d s).ppu.oamAddr = s.ppu.oamAddr := rfl
@[simp] theorem setIoLatch_ppu_v (d : Byte) (s : State) : (setIoLatch d s).ppu.v = s.ppu.v := rfl
@[simp] theorem setIoLatch_ppu_t (d : Byte) (s : State) : (setIoLatch d s).ppu.t = s.ppu.t := rfl
@[simp] theorem setIoLatch_ppu_x (d : Byte) (s : State) : (setIoLatch d s).ppu.x = s.ppu.x := rfl
@[simp] theorem setIoLatch_ppu_w (d : Byte) (s : State) : (setIoLatch d s).ppu.w = s.ppu.w := rfl
@[simp] theorem setIoLatch_ppu_readBuffer (d : Byte) (s : State) : (setIoLatch d s).ppu.readBuffer = s.ppu.readBuffer := rfl
@[simp] theorem setIoLatch_ppu_vram (d : Byte) (s : State) : (setIoLatch d s).ppu.vram = s.ppu.vram := rfl
@[simp] theorem setIoLatch_ppu_pal (d : Byte) (s : State) : (setIoLatch d s).ppu.pal = s.ppu.pal := rfl
@[simp] theorem setIoLatch_ppu_oam (d : Byte) (s : State) : (setIoLatch d s).ppu.oam = s.ppu.oam := rfl
@[simp] theorem setIoLatch_ppu_scanline (d : Byte) (s : State) : (setIoLatch d s).ppu.scanline = s.ppu.scanline := rfl
@[simp] theorem setIoLatch_ppu_dot (d : Byte) (s : State) : (setIoLatch d s).ppu.dot = s.ppu.dot := rfl
@[simp] theorem setIoLatch_ppu_oddFrame (d : Byte) (s : State) : (setIoLatch d s).ppu.oddFrame = s.ppu.oddFrame := rfl
@[simp] theorem setIoLatch_ppu_ioLatch (d : Byte) (s : State) : (setIoLatch d s).ppu.ioLatch = d := rfl

@[simp] theorem resetRegisters_board (d : PpuDraw) (s : State) : (resetRegisters d s).board = s.board := rfl
@[simp] theorem resetRegisters_busLatch (d : PpuDraw) (s : State) : (resetRegisters d s).busLatch = s.busLatch := rfl
@[simp] theorem resetRegisters_ram (d : PpuDraw) (s : State) : (resetRegisters d s).ram = s.ram := rfl
@[simp] theorem resetRegisters_fault (d : PpuDraw) (s : State) : (resetRegisters d s).fault = s.fault := rfl
@[simp] theorem resetRegisters_framePulses (d : PpuDraw) (s : State) : (resetRegisters d s).framePulses = s.framePulses := rfl
@[simp] theorem resetRegisters_draws (d : PpuDraw) (s : State) : (resetRegisters d s).draws = s.draws := rfl

@[simp] theorem Ppu.advance_ctrl (p : Ppu) : p.advance.ctrl = p.ctrl := rfl
@[simp] theorem Ppu.advance_mask (p : Ppu) : p.advance.mask = p.mask := rfl
@[simp] theorem Ppu.advance_vbl (p : Ppu) : p.advance.vbl = p.vbl := rfl
@[simp] theorem Ppu.advance_s0hit (p : Ppu) : p.advance.s0hit = p.s0hit := rfl
@[simp] theorem Ppu.advance_sovf (p : Ppu) : p.advance.sovf = p.sovf := rfl
@[simp] theorem Ppu.advance_oamAddr (p : Ppu) : p.advance.oamAddr = p.oamAddr := rfl
@[simp] theorem Ppu.advance_v (p : Ppu) : p.advance.v = p.v := rfl
@[simp] theorem Ppu.advance_t (p : Ppu) : p.advance.t = p.t := rfl
@[simp] theorem Ppu.advance_x (p : Ppu) : p.advance.x = p.x := rfl
@[simp] theorem Ppu.advance_w (p : Ppu) : p.advance.w = p.w := rfl
@[simp] theorem Ppu.advance_readBuffer (p : Ppu) : p.advance.readBuffer = p.readBuffer := rfl
@[simp] theorem Ppu.advance_ioLatch (p : Ppu) : p.advance.ioLatch = p.ioLatch := rfl
@[simp] theorem Ppu.advance_vram (p : Ppu) : p.advance.vram = p.vram := rfl
@[simp] theorem Ppu.advance_pal (p : Ppu) : p.advance.pal = p.pal := rfl
@[simp] theorem Ppu.advance_oam (p : Ppu) : p.advance.oam = p.oam := rfl

@[simp] theorem Ppu.lineEvents_ctrl (p : Ppu) : p.lineEvents.ctrl = p.ctrl := rfl
@[simp] theorem Ppu.lineEvents_mask (p : Ppu) : p.lineEvents.mask = p.mask := rfl
@[simp] theorem Ppu.lineEvents_oamAddr (p : Ppu) : p.lineEvents.oamAddr = p.oamAddr := rfl
@[simp] theorem Ppu.lineEvents_v (p : Ppu) : p.lineEvents.v = p.v := rfl
@[simp] theorem Ppu.lineEvents_t (p : Ppu) : p.lineEvents.t = p.t := rfl
@[simp] theorem Ppu.lineEvents_x (p : Ppu) : p.lineEvents.x = p.x := rfl
@[simp] theorem Ppu.lineEvents_w (p : Ppu) : p.lineEvents.w = p.w := rfl
@[simp] theorem Ppu.lineEvents_readBuffer (p : Ppu) : p.lineEvents.readBuffer = p.readBuffer := rfl
@[simp] theorem Ppu.lineEvents_ioLatch (p : Ppu) : p.lineEvents.ioLatch = p.ioLatch := rfl
@[simp] theorem Ppu.lineEvents_vram (p : Ppu) : p.lineEvents.vram = p.vram := rfl
@[simp] theorem Ppu.lineEvents_pal (p : Ppu) : p.lineEvents.pal = p.pal := rfl
@[simp] theorem Ppu.lineEvents_oam (p : Ppu) : p.lineEvents.oam = p.oam := rfl
@[simp] theorem Ppu.lineEvents_scanline (p : Ppu) : p.lineEvents.scanline = p.scanline := rfl
@[simp] theorem Ppu.lineEvents_dot (p : Ppu) : p.lineEvents.dot = p.dot := rfl
@[simp] theorem Ppu.lineEvents_oddFrame (p : Ppu) : p.lineEvents.oddFrame = p.oddFrame := rfl

@[simp] theorem Ppu.renderEvents_ctrl (p : Ppu) : p.renderEvents.ctrl = p.ctrl := rfl
@[simp] theorem Ppu.renderEvents_mask (p : Ppu) : p.renderEvents.mask = p.mask := rfl
@[simp] theorem Ppu.renderEvents_vbl (p : Ppu) : p.renderEvents.vbl = p.vbl := rfl
@[simp] theorem Ppu.renderEvents_s0hit (p : Ppu) : p.renderEvents.s0hit = p.s0hit := rfl
@[simp] theorem Ppu.renderEvents_sovf (p : Ppu) : p.renderEvents.sovf = p.sovf := rfl
@[simp] theorem Ppu.renderEvents_t (p : Ppu) : p.renderEvents.t = p.t := rfl
@[simp] theorem Ppu.renderEvents_x (p : Ppu) : p.renderEvents.x = p.x := rfl
@[simp] theorem Ppu.renderEvents_w (p : Ppu) : p.renderEvents.w = p.w := rfl
@[simp] theorem Ppu.renderEvents_readBuffer (p : Ppu) : p.renderEvents.readBuffer = p.readBuffer := rfl
@[simp] theorem Ppu.renderEvents_ioLatch (p : Ppu) : p.renderEvents.ioLatch = p.ioLatch := rfl
@[simp] theorem Ppu.renderEvents_vram (p : Ppu) : p.renderEvents.vram = p.vram := rfl
@[simp] theorem Ppu.renderEvents_pal (p : Ppu) : p.renderEvents.pal = p.pal := rfl
@[simp] theorem Ppu.renderEvents_oam (p : Ppu) : p.renderEvents.oam = p.oam := rfl
@[simp] theorem Ppu.renderEvents_scanline (p : Ppu) : p.renderEvents.scanline = p.scanline := rfl
@[simp] theorem Ppu.renderEvents_dot (p : Ppu) : p.renderEvents.dot = p.dot := rfl
@[simp] theorem Ppu.renderEvents_oddFrame (p : Ppu) : p.renderEvents.oddFrame = p.oddFrame := rfl

@[simp] theorem Ppu.takeFlags_ctrl (h o : Bool) (p : Ppu) : (p.takeFlags h o).ctrl = p.ctrl := rfl
@[simp] theorem Ppu.takeFlags_mask (h o : Bool) (p : Ppu) : (p.takeFlags h o).mask = p.mask := rfl
@[simp] theorem Ppu.takeFlags_vbl (h o : Bool) (p : Ppu) : (p.takeFlags h o).vbl = p.vbl := rfl
@[simp] theorem Ppu.takeFlags_oamAddr (h o : Bool) (p : Ppu) : (p.takeFlags h o).oamAddr = p.oamAddr := rfl
@[simp] theorem Ppu.takeFlags_v (h o : Bool) (p : Ppu) : (p.takeFlags h o).v = p.v := rfl
@[simp] theorem Ppu.takeFlags_t (h o : Bool) (p : Ppu) : (p.takeFlags h o).t = p.t := rfl
@[simp] theorem Ppu.takeFlags_x (h o : Bool) (p : Ppu) : (p.takeFlags h o).x = p.x := rfl
@[simp] theorem Ppu.takeFlags_w (h o : Bool) (p : Ppu) : (p.takeFlags h o).w = p.w := rfl
@[simp] theorem Ppu.takeFlags_readBuffer (h o : Bool) (p : Ppu) : (p.takeFlags h o).readBuffer = p.readBuffer := rfl
@[simp] theorem Ppu.takeFlags_ioLatch (h o : Bool) (p : Ppu) : (p.takeFlags h o).ioLatch = p.ioLatch := rfl
@[simp] theorem Ppu.takeFlags_vram (h o : Bool) (p : Ppu) : (p.takeFlags h o).vram = p.vram := rfl
@[simp] theorem Ppu.takeFlags_pal (h o : Bool) (p : Ppu) : (p.takeFlags h o).pal = p.pal := rfl
@[simp] theorem Ppu.takeFlags_oam (h o : Bool) (p : Ppu) : (p.takeFlags h o).oam = p.oam := rfl
@[simp] theorem Ppu.takeFlags_scanline (h o : Bool) (p : Ppu) : (p.takeFlags h o).scanline = p.scanline := rfl
@[simp] theorem Ppu.takeFlags_dot (h o : Bool) (p : Ppu) : (p.takeFlags h o).dot = p.dot := rfl
@[simp] theorem Ppu.takeFlags_oddFrame (h o : Bool) (p : Ppu) : (p.takeFlags h o).oddFrame = p.oddFrame := rfl

@[simp] theorem ppuDot_ppu_ctrl (s : State) : (ppuDot s).ppu.ctrl = s.ppu.ctrl := rfl
@[simp] theorem ppuDot_ppu_mask (s : State) : (ppuDot s).ppu.mask = s.ppu.mask := rfl
@[simp] theorem ppuDot_ppu_t (s : State) : (ppuDot s).ppu.t = s.ppu.t := rfl
@[simp] theorem ppuDot_ppu_x (s : State) : (ppuDot s).ppu.x = s.ppu.x := rfl
@[simp] theorem ppuDot_ppu_w (s : State) : (ppuDot s).ppu.w = s.ppu.w := rfl
@[simp] theorem ppuDot_ppu_readBuffer (s : State) : (ppuDot s).ppu.readBuffer = s.ppu.readBuffer := rfl
@[simp] theorem ppuDot_ppu_ioLatch (s : State) : (ppuDot s).ppu.ioLatch = s.ppu.ioLatch := rfl
@[simp] theorem ppuDot_ppu_vram (s : State) : (ppuDot s).ppu.vram = s.ppu.vram := rfl
@[simp] theorem ppuDot_ppu_pal (s : State) : (ppuDot s).ppu.pal = s.ppu.pal := rfl
@[simp] theorem ppuDot_ppu_oam (s : State) : (ppuDot s).ppu.oam = s.ppu.oam := rfl

@[simp] theorem tick_ppu_ctrl (s : State) : (tick s).ppu.ctrl = s.ppu.ctrl := rfl
@[simp] theorem tick_ppu_mask (s : State) : (tick s).ppu.mask = s.ppu.mask := rfl
@[simp] theorem tick_ppu_t (s : State) : (tick s).ppu.t = s.ppu.t := rfl
@[simp] theorem tick_ppu_x (s : State) : (tick s).ppu.x = s.ppu.x := rfl
@[simp] theorem tick_ppu_w (s : State) : (tick s).ppu.w = s.ppu.w := rfl
@[simp] theorem tick_ppu_readBuffer (s : State) : (tick s).ppu.readBuffer = s.ppu.readBuffer := rfl
@[simp] theorem tick_ppu_ioLatch (s : State) : (tick s).ppu.ioLatch = s.ppu.ioLatch := rfl
@[simp] theorem tick_ppu_vram (s : State) : (tick s).ppu.vram = s.ppu.vram := rfl
@[simp] theorem tick_ppu_pal (s : State) : (tick s).ppu.pal = s.ppu.pal := rfl
@[simp] theorem tick_ppu_oam (s : State) : (tick s).ppu.oam = s.ppu.oam := rfl

@[simp] theorem endCycle_ppu_ctrl (s : State) : (endCycle s).ppu.ctrl = s.ppu.ctrl := by simp only [endCycle, tick_ppu_ctrl]
@[simp] theorem endCycle_ppu_mask (s : State) : (endCycle s).ppu.mask = s.ppu.mask := by simp only [endCycle, tick_ppu_mask]
@[simp] theorem endCycle_ppu_t (s : State) : (endCycle s).ppu.t = s.ppu.t := by simp only [endCycle, tick_ppu_t]
@[simp] theorem endCycle_ppu_x (s : State) : (endCycle s).ppu.x = s.ppu.x := by simp only [endCycle, tick_ppu_x]
@[simp] theorem endCycle_ppu_w (s : State) : (endCycle s).ppu.w = s.ppu.w := by simp only [endCycle, tick_ppu_w]
@[simp] theorem endCycle_ppu_readBuffer (s : State) : (endCycle s).ppu.readBuffer = s.ppu.readBuffer := by simp only [endCycle, tick_ppu_readBuffer]
@[simp] theorem endCycle_ppu_ioLatch (s : State) : (endCycle s).ppu.ioLatch = s.ppu.ioLatch := by simp only [endCycle, tick_ppu_ioLatch]
@[simp] theorem endCycle_ppu_vram (s : State) : (endCycle s).ppu.vram = s.ppu.vram := by simp only [endCycle, tick_ppu_vram]
@[simp] theorem endCycle_ppu_pal (s : State) : (endCycle s).ppu.pal = s.ppu.pal := by simp only [endCycle, tick_ppu_pal]
@[simp] theorem endCycle_ppu_oam (s : State) : (endCycle s).ppu.oam = s.ppu.oam := by simp only [endCycle, tick_ppu_oam]

/-- Rendering is enabled or not by PPUMASK alone, which no dot changes. -/
@[simp] theorem endCycle_renderingEnabled (s : State) :
    (endCycle s).ppu.renderingEnabled = s.ppu.renderingEnabled := by simp [Ppu.renderingEnabled]

@[simp] theorem tick_renderingEnabled (s : State) :
    (tick s).ppu.renderingEnabled = s.ppu.renderingEnabled := rfl

/-- No dot changes a stored cell. -/
@[simp] theorem endCycle_cell (s : State) (l : Loc) : (endCycle s).cell l = s.cell l := by
  cases l <;> simp [State.cell]

@[simp] theorem setIoLatch_cell (d : Byte) (s : State) (l : Loc) : (setIoLatch d s).cell l = s.cell l := by
  cases l <;> rfl

@[simp] theorem nmiCheck_cell (s : State) (l : Loc) : (nmiCheck s).cell l = s.cell l := by
  cases l <;> rfl

end Sys2Proof.Machine
end

