-- ==== Sys2Proof/Laws/Control.lean ====
section
/-! SUPPORT. How a piece of the control unit's work runs: its equations, and a rule that composes what each of its parts
keeps. -/

namespace Sys2Proof.Machine

variable {α β : Type}

theorem bind_eq (m : M α) (f : α → M β) (s : State) :
    (m >>= f) s = match m s with
      | .ok a t => f a t
      | .error r t => .error r t := by
  show EStateM.bind m f s = _
  unfold EStateM.bind
  cases m s <;> rfl

theorem bind_ok {m : M α} {f : α → M β} {s t : State} {a : α} (h : m s = .ok a t) :
    (m >>= f) s = f a t := by
  rw [bind_eq, h]

theorem bind_error {m : M α} {f : α → M β} {s t : State} {r : FaultRecord} (h : m s = .error r t) :
    (m >>= f) s = .error r t := by
  rw [bind_eq, h]

/-- What a sequence that completes is made of. -/
theorem bind_eq_ok {m : M α} {f : α → M β} {s u : State} {b : β} (h : (m >>= f) s = .ok b u) :
    ∃ a t, m s = .ok a t ∧ f a t = .ok b u := by
  rw [bind_eq] at h
  cases hm : m s with
  | ok a t => rw [hm] at h; exact ⟨a, t, rfl, h⟩
  | error r t => rw [hm] at h; cases h

@[simp] theorem pure_apply (a : α) (s : State) : (pure a : M α) s = .ok a s := rfl

@[simp] theorem getCpu_apply (s : State) : getCpu s = .ok s.cpu s := rfl

@[simp] theorem modifyCpu_apply (f : Cpu → Cpu) (s : State) :
    modifyCpu f s = .ok () { s with cpu := f s.cpu } := rfl

@[simp] theorem setPc_apply (a : Word) (s : State) :
    setPc a s = .ok () { s with cpu := { s.cpu with pc := a } } := rfl

@[simp] theorem idle_apply (s : State) : idle s = .ok () (endCycle s) := rfl

@[simp] theorem raise_apply (r : FaultRecord) (s : State) :
    (raise r : M α) s = .error r { s with fault := some r } := rfl

theorem memRead_ok {s : State} {a : Word} (h : readFault s a = none) :
    memRead a s = .ok (readByte s a) (endCycle { afterRead s a with busLatch := readByte s a }) := by
  unfold memRead; rw [h]

theorem memRead_fault {s : State} {a : Word} {r : FaultRecord} (h : readFault s a = some r) :
    memRead a s = .error r { s with fault := some r } := by
  unfold memRead; rw [h]; rfl

theorem memWrite_ok {s : State} {a : Word} {d : Byte} (h : writeFault s a = none) :
    memWrite a d s = .ok () (endCycle { afterWrite s a d with busLatch := d }) := by
  unfold memWrite; rw [h]

theorem memWrite_fault {s : State} {a : Word} {d : Byte} {r : FaultRecord} (h : writeFault s a = some r) :
    memWrite a d s = .error r { s with fault := some r } := by
  unfold memWrite; rw [h]; rfl

/-- What a read that completes does. -/
theorem memRead_eq_ok {s t : State} {a : Word} {b : Byte} (h : memRead a s = .ok b t) :
    readFault s a = none ∧ b = readByte s a ∧
      t = endCycle { afterRead s a with busLatch := readByte s a } := by
  cases hf : readFault s a with
  | none => rw [memRead_ok hf] at h; cases h; exact ⟨rfl, rfl, rfl⟩
  | some r => rw [memRead_fault hf] at h; cases h

/-- What a write that completes does. -/
theorem memWrite_eq_ok {s t : State} {a : Word} {d : Byte} {u : Unit} (h : memWrite a d s = .ok u t) :
    writeFault s a = none ∧ t = endCycle { afterWrite s a d with busLatch := d } := by
  cases hf : writeFault s a with
  | none => rw [memWrite_ok hf] at h; cases h; exact ⟨rfl, rfl⟩
  | some r => rw [memWrite_fault hf] at h; cases h

/-- A dummy read is a read. -/
theorem dummy_eq (a : Word) (s : State) :
    dummy a s = match memRead a s with
      | .ok _ t => .ok () t
      | .error r t => .error r t := by
  unfold dummy; rw [bind_eq]; cases memRead a s <;> rfl

/-- `m` keeps the relation `R` between the state before and the state after, when it completes. -/
def Keeps (R : State → State → Prop) (m : M α) : Prop := ∀ s a t, m s = .ok a t → R s t

/-- A relation that holds of no change and composes. -/
structure Frame (R : State → State → Prop) : Prop where
  refl : ∀ s, R s s
  trans : ∀ {s t u}, R s t → R t u → R s u

theorem Keeps.bind {R : State → State → Prop} (hR : Frame R) {m : M α} {f : α → M β}
    (hm : Keeps R m) (hf : ∀ a, Keeps R (f a)) : Keeps R (m >>= f) := by
  intro s b u h
  obtain ⟨a, t, h1, h2⟩ := bind_eq_ok h
  exact hR.trans (hm _ _ _ h1) (hf _ _ _ _ h2)

theorem Keeps.pure {R : State → State → Prop} (hR : Frame R) (a : α) : Keeps R (pure a : M α) := by
  intro s b t h; cases h; exact hR.refl s

theorem Keeps.getCpu {R : State → State → Prop} (hR : Frame R) : Keeps R getCpu := by
  intro s b t h; cases h; exact hR.refl s

theorem Keeps.modifyCpu {R : State → State → Prop} {f : Cpu → Cpu}
    (h : ∀ s : State, R s { s with cpu := f s.cpu }) : Keeps R (modifyCpu f) := by
  intro s b t ht; cases ht; exact h s

theorem Keeps.dummy {R : State → State → Prop} {a : Word} (h : Keeps R (memRead a)) : Keeps R (dummy a) := by
  intro s u t ht
  rw [dummy_eq] at ht
  cases hm : memRead a s with
  | ok b t' => rw [hm] at ht; cases ht; exact h _ _ _ hm
  | error r t' => rw [hm] at ht; cases ht

/-- An outcome that is a next state comes from work that completes. -/
theorem outcome_eq_next {m : M Unit} {s t : State} (h : outcome m s = .next t) : m s = .ok () t := by
  unfold outcome at h
  cases hm : m s with
  | ok u t' => rw [hm] at h; cases h; rfl
  | error r t' => rw [hm] at h; cases h

theorem outcome_ok {m : M Unit} {s t : State} {u : Unit} (h : m s = .ok u t) : outcome m s = .next t := by
  unfold outcome; rw [h]

theorem outcome_error {m : M Unit} {s t : State} {r : FaultRecord} (h : m s = .error r t) :
    outcome m s = .fault (r.toFault t) := by
  unfold outcome; rw [h]

/-- No piece of work refuses. -/
theorem outcome_not_refused (m : M Unit) (s : State) (f : Refusal) : outcome m s ≠ .refused f := by
  unfold outcome; cases m s <;> simp

end Sys2Proof.Machine
end

