-- ==== Sys2Proof/Laws/Memory.lean ====
section
/-! SUPPORT. The laws of a memory: a read after a write, and that every operation that makes a memory keeps the canonical
form. -/

namespace Sys2Proof.Machine

variable {w : Nat}

@[simp] theorem Memory.read_nil (a : Nat) : Memory.read ([] : Memory w) a = 0#w := rfl

theorem Memory.read_erase_same (m : Memory w) (a : Nat) : Memory.read (m.erase a) a = 0#w := by
  induction m with
  | nil => rfl
  | cons c m ih =>
    obtain ⟨k, b⟩ := c
    by_cases h : a = k <;> simp [Memory.erase, Memory.read, h]
    · subst h; exact ih
    · exact ih

theorem Memory.read_erase_other (m : Memory w) {a b : Nat} (h : b ≠ a) :
    Memory.read (m.erase a) b = m.read b := by
  induction m with
  | nil => rfl
  | cons c m ih =>
    obtain ⟨k, v⟩ := c
    by_cases ha : a = k
    · subst ha; simp [Memory.erase, Memory.read, h, ih]
    · by_cases hb : b = k <;> simp [Memory.erase, Memory.read, ha, hb]
      exact ih

theorem Memory.read_insert_same (m : Memory w) (a : Nat) (v : BitVec w)
    (h : ∀ c ∈ m, c.1 ≠ a) : Memory.read (m.insert a v) a = v := by
  induction m with
  | nil => simp [Memory.insert, Memory.read]
  | cons c m ih =>
    obtain ⟨k, b⟩ := c
    have hk : k ≠ a := h (k, b) (by simp)
    by_cases hlt : a < k
    · simp [Memory.insert, Memory.read, hlt]
    · simp [Memory.insert, Memory.read, hlt, Ne.symm hk]
      exact ih fun c hc => h c (by simp [hc])

theorem Memory.read_insert_other (m : Memory w) {a b : Nat} (v : BitVec w) (h : b ≠ a) :
    Memory.read (m.insert a v) b = m.read b := by
  induction m with
  | nil => simp [Memory.insert, Memory.read, h]
  | cons c m ih =>
    obtain ⟨k, u⟩ := c
    by_cases hlt : a < k
    · simp [Memory.insert, Memory.read, hlt, h]
    · by_cases hb : b = k <;> simp [Memory.insert, Memory.read, hlt, hb]
      exact ih

theorem Memory.mem_erase {m : Memory w} {a : Nat} {c : Nat × BitVec w} :
    c ∈ m.erase a ↔ c ∈ m ∧ c.1 ≠ a := by
  induction m with
  | nil => simp [Memory.erase]
  | cons d m ih =>
    obtain ⟨k, b⟩ := d
    by_cases h : a = k
    · simp only [Memory.erase, h, if_true, List.mem_cons]
      subst h
      rw [ih]
      constructor
      · rintro ⟨h1, h2⟩; exact ⟨.inr h1, h2⟩
      · rintro ⟨h1 | h1, h2⟩
        · subst h1; exact absurd rfl h2
        · exact ⟨h1, h2⟩
    · simp only [Memory.erase, h, if_false, List.mem_cons, ih]
      constructor
      · rintro (h1 | ⟨h1, h2⟩)
        · subst h1; exact ⟨.inl rfl, Ne.symm h⟩
        · exact ⟨.inr h1, h2⟩
      · rintro ⟨h1 | h1, h2⟩
        · exact .inl h1
        · exact .inr ⟨h1, h2⟩

theorem Memory.mem_insert {m : Memory w} {a : Nat} {v : BitVec w} {c : Nat × BitVec w} :
    c ∈ m.insert a v ↔ c = (a, v) ∨ c ∈ m := by
  induction m with
  | nil => simp [Memory.insert]
  | cons d m ih =>
    obtain ⟨k, b⟩ := d
    by_cases h : a < k
    · simp [Memory.insert, h]
    · simp only [Memory.insert, h, if_false, List.mem_cons, ih]
      tauto

/-- A read after a write to the same cell gives the value written. -/
@[simp] theorem Memory.read_write_same (m : Memory w) (a : Nat) (v : BitVec w) :
    (m.write a v).read a = v := by
  unfold Memory.write
  split
  · next h => rw [Memory.read_erase_same, h]
  · exact Memory.read_insert_same _ _ _ fun c hc => (Memory.mem_erase.mp hc).2

/-- A write leaves every other cell alone. -/
theorem Memory.read_write_other (m : Memory w) {a b : Nat} (v : BitVec w) (h : b ≠ a) :
    (m.write a v).read b = m.read b := by
  unfold Memory.write
  split
  · exact Memory.read_erase_other m h
  · rw [Memory.read_insert_other _ _ h, Memory.read_erase_other m h]

theorem Memory.read_write (m : Memory w) (a b : Nat) (v : BitVec w) :
    (m.write a v).read b = if b = a then v else m.read b := by
  split
  · next h => subst h; simp
  · next h => exact Memory.read_write_other m v h

theorem Memory.erase_pairwise {m : Memory w} (a : Nat) (h : m.Pairwise fun x y => x.1 < y.1) :
    (m.erase a).Pairwise fun x y => x.1 < y.1 := by
  induction m with
  | nil => simp [Memory.erase]
  | cons c m ih =>
    obtain ⟨k, b⟩ := c
    rw [List.pairwise_cons] at h
    by_cases hk : a = k
    · simp only [Memory.erase, hk, if_true]; subst hk; exact ih h.2
    · simp only [Memory.erase, hk, if_false, List.pairwise_cons]
      exact ⟨fun c hc => h.1 c (Memory.mem_erase.mp hc).1, ih h.2⟩

theorem Memory.insert_pairwise {m : Memory w} {a : Nat} (v : BitVec w)
    (h : m.Pairwise fun x y => x.1 < y.1) (hne : ∀ c ∈ m, c.1 ≠ a) :
    (m.insert a v).Pairwise fun x y => x.1 < y.1 := by
  induction m with
  | nil => simp [Memory.insert]
  | cons c m ih =>
    obtain ⟨k, b⟩ := c
    rw [List.pairwise_cons] at h
    have hk : k ≠ a := hne (k, b) (by simp)
    by_cases hlt : a < k
    · simp only [Memory.insert, hlt, if_true, List.pairwise_cons]
      refine ⟨fun c hc => ?_, h.1, h.2⟩
      rcases List.mem_cons.mp hc with rfl | hc
      · exact hlt
      · exact lt_trans hlt (h.1 c hc)
    · simp only [Memory.insert, hlt, if_false, List.pairwise_cons]
      refine ⟨fun c hc => ?_, ih h.2 fun c hc => hne c (by simp [hc])⟩
      rcases Memory.mem_insert.mp hc with rfl | hc
      · show k < a; omega
      · exact h.1 c hc

/-- A write keeps the canonical form. -/
theorem Memory.wf_write {size a : Nat} {m : Memory w} (v : BitVec w) (ha : a < size)
    (h : Memory.wf size m) : Memory.wf size (m.write a v) := by
  unfold Memory.write
  split
  · exact ⟨Memory.erase_pairwise a h.1, fun c hc => h.2 c (Memory.mem_erase.mp hc).1⟩
  · next hv =>
    refine ⟨Memory.insert_pairwise v (Memory.erase_pairwise a h.1)
      fun c hc => (Memory.mem_erase.mp hc).2, fun c hc => ?_⟩
    rcases Memory.mem_insert.mp hc with rfl | hc
    · exact ⟨ha, hv⟩
    · exact h.2 c (Memory.mem_erase.mp hc).1

theorem Memory.mem_ofListFrom {i : Nat} {bs : List (BitVec w)} {c : Nat × BitVec w}
    (h : c ∈ Memory.ofListFrom i bs) : i ≤ c.1 ∧ c.1 < i + bs.length ∧ c.2 ≠ 0#w ∧ bs.getD (c.1 - i) 0#w = c.2 := by
  induction bs generalizing i with
  | nil => simp [Memory.ofListFrom] at h
  | cons b bs ih =>
    have step : c ∈ Memory.ofListFrom (i + 1) bs →
        i ≤ c.1 ∧ c.1 < i + (b :: bs).length ∧ c.2 ≠ 0#w ∧ (b :: bs).getD (c.1 - i) 0#w = c.2 := by
      intro hc
      obtain ⟨h1, h2, h3, h4⟩ := ih hc
      refine ⟨by omega, by simp only [List.length_cons]; omega, h3, ?_⟩
      have : c.1 - i = (c.1 - (i + 1)) + 1 := by omega
      rw [this, List.getD_cons_succ]; exact h4
    by_cases hb : b = 0#w
    · simp only [Memory.ofListFrom, hb, if_true] at h; subst hb; exact step h
    · simp only [Memory.ofListFrom, hb, if_false, List.mem_cons] at h
      rcases h with rfl | h
      · simp [hb]
      · exact step h

theorem Memory.ofListFrom_pairwise (i : Nat) (bs : List (BitVec w)) :
    (Memory.ofListFrom i bs).Pairwise fun x y => x.1 < y.1 := by
  induction bs generalizing i with
  | nil => simp [Memory.ofListFrom]
  | cons b bs ih =>
    by_cases hb : b = 0#w
    · simp only [Memory.ofListFrom, hb, if_true]; exact ih _
    · simp only [Memory.ofListFrom, hb, if_false, List.pairwise_cons]
      exact ⟨fun c hc => (Memory.mem_ofListFrom hc).1, ih _⟩

/-- A memory built from a list of contents is in canonical form. -/
theorem Memory.wf_ofListFrom {size : Nat} {bs : List (BitVec w)} (h : bs.length ≤ size) :
    Memory.wf size (Memory.ofListFrom 0 bs) :=
  ⟨Memory.ofListFrom_pairwise 0 bs, fun c hc => by
    obtain ⟨_, h2, h3, _⟩ := Memory.mem_ofListFrom hc
    exact ⟨by omega, h3⟩⟩

theorem Memory.wf_ofList (size : Nat) (bs : List (BitVec w)) : Memory.wf size (Memory.ofList size bs) :=
  Memory.wf_ofListFrom (by simp)

theorem Memory.wf_tabulate (size : Nat) (f : Nat → BitVec w) : Memory.wf size (Memory.tabulate size f) :=
  Memory.wf_ofListFrom (by simp)

theorem Memory.wf_nil (size : Nat) : Memory.wf size ([] : Memory w) := by simp [Memory.wf]

theorem Memory.read_ofListFrom (bs : List (BitVec w)) (i a : Nat) :
    (Memory.ofListFrom i bs).read a = if i ≤ a then bs.getD (a - i) 0#w else 0#w := by
  induction bs generalizing i with
  | nil => simp [Memory.ofListFrom]
  | cons b bs ih =>
    by_cases hb : b = 0#w
    · simp only [Memory.ofListFrom, hb, if_true, ih]
      by_cases h1 : i + 1 ≤ a
      · have e : a - i = (a - (i + 1)) + 1 := by omega
        rw [if_pos h1, if_pos (by omega), e, List.getD_cons_succ]
      · by_cases h2 : i ≤ a
        · have : a = i := by omega
          subst this; simp
        · rw [if_neg h1, if_neg h2]
    · simp only [Memory.ofListFrom, hb, if_false, Memory.read, ih]
      by_cases h0 : a = i
      · subst h0; simp
      · by_cases h1 : i + 1 ≤ a
        · have e : a - i = (a - (i + 1)) + 1 := by omega
          rw [if_neg h0, if_pos h1, if_pos (by omega), e, List.getD_cons_succ]
        · rw [if_neg h0, if_neg h1, if_neg (by omega)]

/-- What a memory built from a list of contents holds. -/
theorem Memory.read_ofList (size : Nat) (bs : List (BitVec w)) (a : Nat) (h : a < size) :
    (Memory.ofList size bs).read a = bs.getD a 0#w := by
  rw [Memory.ofList, Memory.read_ofListFrom]
  simp [List.getD_eq_getElem?_getD, h]

/-- What a tabulated memory holds. -/
theorem Memory.read_tabulate (size : Nat) (f : Nat → BitVec w) (a : Nat) (h : a < size) :
    (Memory.tabulate size f).read a = f a := by
  rw [Memory.tabulate, Memory.read_ofListFrom]
  simp [List.getD_eq_getElem?_getD, h]

end Sys2Proof.Machine
end

