-- ==== Sys2Proof/Laws/Bus.lean ====
section
/-! SUPPORT. The laws of the bus: what addresses select, when an access faults, and everything one access can change. -/

namespace Sys2Proof.Machine

/-- A page-zero address selects a RAM cell. -/
@[simp] theorem decodeAddr_zext16 (b : Byte) : decodeAddr (zext16 b) = .ram b.toNat := by
  have hb : b.toNat < 256 := b.isLt
  have h : (zext16 b).toNat = b.toNat := by simp [zext16, BitVec.toNat_setWidth]; omega
  have h2 : (zext16 b &&& 0x07FF#16).toNat = b.toNat := by
    rw [BitVec.toNat_and, h]
    show b.toNat &&& (2 ^ 11 - 1) = _
    rw [Nat.and_two_pow_sub_one_eq_mod]; omega
  unfold decodeAddr
  rw [if_pos (by omega), h2]

/-- A stack address selects a RAM cell of page one. -/
@[simp] theorem decodeAddr_stackAddr (b : Byte) : decodeAddr (stackAddr b) = .ram (stackCell b) := by
  have hb : b.toNat < 256 := b.isLt
  have h : (stackAddr b).toNat = 256 + b.toNat := by
    have h1 : (1 : Nat) <<< 8 = 2 ^ 8 * 1 := by decide
    simp only [stackAddr, cat16, BitVec.toNat_append, BitVec.toNat_ofNat]
    rw [show 1 % 2 ^ 8 = 1 from rfl, h1, ← Nat.two_pow_add_eq_or_of_lt hb]
  have h2 : (stackAddr b &&& 0x07FF#16).toNat = 256 + b.toNat := by
    rw [BitVec.toNat_and, h]
    show (256 + b.toNat) &&& (2 ^ 11 - 1) = _
    rw [Nat.and_two_pow_sub_one_eq_mod]; omega
  unfold decodeAddr
  rw [if_pos (by omega), h2]; rfl

/-- An address from 0x8000 up selects PRG ROM. -/
theorem decodeAddr_prg {a : Word} (h : 0x8000 ≤ a.toNat) : decodeAddr a = .prg := by
  unfold decodeAddr
  rw [if_neg (by omega), if_neg (by omega), if_neg (by omega), if_neg (by omega), if_neg (by omega),
    if_neg (by omega)]

/-- RAM below 0x2000, mirrored every 0x800. -/
theorem decodeAddr_ram {a : Word} (h : a.toNat ≤ 0x1FFF) : decodeAddr a = .ram (a.toNat % 0x800) := by
  unfold decodeAddr
  rw [if_pos h, BitVec.toNat_and]
  show Target.ram (a.toNat &&& (2 ^ 11 - 1)) = _
  rw [Nat.and_two_pow_sub_one_eq_mod]

/-- The PPU register window, mirrored every 8. -/
theorem decodeAddr_ppu {a : Word} (h1 : 0x2000 ≤ a.toNat) (h2 : a.toNat ≤ 0x3FFF) :
    decodeAddr a = .ppu (ppuRegOf (a.toNat % 8)) := by
  unfold decodeAddr
  rw [if_neg (by omega), if_pos h2, BitVec.toNat_and]
  show Target.ppu (ppuRegOf (a.toNat &&& (2 ^ 3 - 1))) = _
  rw [Nat.and_two_pow_sub_one_eq_mod]

/-- A RAM cell the decoder selects exists. -/
theorem decodeAddr_ram_lt {a : Word} {i : Nat} (h : decodeAddr a = .ram i) : i < Config.ramSize := by
  unfold decodeAddr at h
  split at h
  · cases h
    rw [BitVec.toNat_and]
    exact lt_of_le_of_lt Nat.and_le_right (by decide)
  · repeat' split at h
    all_goals cases h

theorem readFault_of_not_ppu {s : State} {a : Word} (h : ∀ r, decodeAddr a ≠ .ppu r) : readFault s a = none := by
  unfold readFault
  split
  · next r hr => exact absurd hr (h r)
  · rfl

theorem writeFault_of_not_ppu {s : State} {a : Word} (h : ∀ r, decodeAddr a ≠ .ppu r) : writeFault s a = none := by
  unfold writeFault
  split
  · next r hr => exact absurd hr (h r)
  · rfl

/-- A read of RAM always completes. -/
theorem memRead_ram {a : Word} {i : Nat} (h : decodeAddr a = .ram i) (s : State) :
    memRead a s = .ok (s.ram.read i) (endCycle { s with busLatch := s.ram.read i }) := by
  rw [memRead_ok (readFault_of_not_ppu (by simp [h]))]
  simp [readByte, afterRead, h]

/-- A read of PRG ROM always completes. -/
theorem memRead_prg {a : Word} (h : decodeAddr a = .prg) (s : State) :
    memRead a s = .ok (s.board.prg.read (prgIndex s.board.prgSize a))
      (endCycle { s with busLatch := s.board.prg.read (prgIndex s.board.prgSize a) }) := by
  rw [memRead_ok (readFault_of_not_ppu (by simp [h]))]
  simp [readByte, afterRead, h]

/-- A write to RAM always completes. -/
theorem memWrite_ram {a : Word} {i : Nat} (h : decodeAddr a = .ram i) (d : Byte) (s : State) :
    memWrite a d s = .ok () (endCycle { s with ram := s.ram.write i d, busLatch := d }) := by
  rw [memWrite_ok (writeFault_of_not_ppu (by simp [h]))]
  simp [afterWrite, h]

/-- A page-zero read. -/
@[simp] theorem memRead_zext16 (b : Byte) (s : State) :
    memRead (zext16 b) s = .ok (s.ram.read b.toNat) (endCycle { s with busLatch := s.ram.read b.toNat }) :=
  memRead_ram (decodeAddr_zext16 b) s

/-- A stack read. -/
@[simp] theorem memRead_stackAddr (b : Byte) (s : State) :
    memRead (stackAddr b) s =
      .ok (s.ram.read (stackCell b)) (endCycle { s with busLatch := s.ram.read (stackCell b) }) :=
  memRead_ram (decodeAddr_stackAddr b) s

/-- A stack write. -/
@[simp] theorem memWrite_stackAddr (b d : Byte) (s : State) :
    memWrite (stackAddr b) d s =
      .ok () (endCycle { s with ram := s.ram.write (stackCell b) d, busLatch := d }) :=
  memWrite_ram (decodeAddr_stackAddr b) d s

/-- `Push` always completes: the stack is RAM. -/
@[simp] theorem push_apply (v : Byte) (s : State) :
    push v s =
      let t := endCycle { s with ram := s.ram.write (stackCell s.cpu.s) v, busLatch := v }
      .ok () { t with cpu := { t.cpu with s := t.cpu.s - 1#8 } } := by
  simp [push, bind_eq]

/-- `Pull` always completes: the stack is RAM. -/
@[simp] theorem pull_apply (s : State) :
    pull s =
      let q := s.cpu.s + 1#8
      .ok (s.ram.read (stackCell q))
        (endCycle { s with cpu := { s.cpu with s := q }, busLatch := s.ram.read (stackCell q) }) := by
  simp [pull, bind_eq]

@[simp] theorem dummyStack_apply (s : State) :
    dummyStack s = .ok () (endCycle { s with busLatch := s.ram.read (stackCell s.cpu.s) }) := by
  simp [dummyStack, dummy_eq, bind_eq]

@[simp] theorem dummyPc_apply (s : State) :
    dummyPc s = match memRead s.cpu.pc s with
      | .ok _ t => .ok () t
      | .error r t => .error r t := by
  cases h : memRead s.cpu.pc s <;> simp only [dummyPc, bind_eq, getCpu_apply, dummy_eq, h]

@[simp] theorem afterRegRule_cpu (s : State) (r : PpuReg) : (afterRegRule s r).cpu = s.cpu := by
  cases r <;> rfl
@[simp] theorem afterRegRule_cycles (s : State) (r : PpuReg) : (afterRegRule s r).cycles = s.cycles := by
  cases r <;> rfl
@[simp] theorem afterRegRule_busLatch (s : State) (r : PpuReg) : (afterRegRule s r).busLatch = s.busLatch := by
  cases r <;> rfl
@[simp] theorem afterRegRule_dmaRequest (s : State) (r : PpuReg) : (afterRegRule s r).dmaRequest = s.dmaRequest := by
  cases r <;> rfl
@[simp] theorem afterRegRule_ram (s : State) (r : PpuReg) : (afterRegRule s r).ram = s.ram := by
  cases r <;> rfl
@[simp] theorem afterRegRule_fault (s : State) (r : PpuReg) : (afterRegRule s r).fault = s.fault := by
  cases r <;> rfl
@[simp] theorem afterRegRule_board (s : State) (r : PpuReg) : (afterRegRule s r).board = s.board := by
  cases r <;> rfl
@[simp] theorem afterRegRule_inputs (s : State) (r : PpuReg) : (afterRegRule s r).inputs = s.inputs := by
  cases r <;> rfl
@[simp] theorem afterRegRule_framePulses (s : State) (r : PpuReg) : (afterRegRule s r).framePulses = s.framePulses := by
  cases r <;> rfl

@[simp] theorem afterRead_cpu (s : State) (a : Word) : (afterRead s a).cpu = s.cpu := by
  unfold afterRead; split <;> simp [afterRegRead]
@[simp] theorem afterRead_cycles (s : State) (a : Word) : (afterRead s a).cycles = s.cycles := by
  unfold afterRead; split <;> simp [afterRegRead]
@[simp] theorem afterRead_busLatch (s : State) (a : Word) : (afterRead s a).busLatch = s.busLatch := by
  unfold afterRead; split <;> simp [afterRegRead]
@[simp] theorem afterRead_dmaRequest (s : State) (a : Word) : (afterRead s a).dmaRequest = s.dmaRequest := by
  unfold afterRead; split <;> simp [afterRegRead]
@[simp] theorem afterRead_ram (s : State) (a : Word) : (afterRead s a).ram = s.ram := by
  unfold afterRead; split <;> simp [afterRegRead]
@[simp] theorem afterRead_fault (s : State) (a : Word) : (afterRead s a).fault = s.fault := by
  unfold afterRead; split <;> simp [afterRegRead]
@[simp] theorem afterRead_board (s : State) (a : Word) : (afterRead s a).board = s.board := by
  unfold afterRead; split <;> simp [afterRegRead]
@[simp] theorem afterRead_inputs (s : State) (a : Word) : (afterRead s a).inputs = s.inputs := by
  unfold afterRead; split <;> simp [afterRegRead]
@[simp] theorem afterRead_framePulses (s : State) (a : Word) : (afterRead s a).framePulses = s.framePulses := by
  unfold afterRead; split <;> simp [afterRegRead]

@[simp] theorem afterRegWriteRule_cpu (s : State) (d : Byte) (r : PpuReg) : (afterRegWriteRule s d r).cpu = s.cpu := by
  cases r <;> rfl
@[simp] theorem afterRegWriteRule_cycles (s : State) (d : Byte) (r : PpuReg) : (afterRegWriteRule s d r).cycles = s.cycles := by
  cases r <;> rfl
@[simp] theorem afterRegWriteRule_busLatch (s : State) (d : Byte) (r : PpuReg) : (afterRegWriteRule s d r).busLatch = s.busLatch := by
  cases r <;> rfl
@[simp] theorem afterRegWriteRule_dmaRequest (s : State) (d : Byte) (r : PpuReg) : (afterRegWriteRule s d r).dmaRequest = s.dmaRequest := by
  cases r <;> rfl
@[simp] theorem afterRegWriteRule_ram (s : State) (d : Byte) (r : PpuReg) : (afterRegWriteRule s d r).ram = s.ram := by
  cases r <;> rfl
@[simp] theorem afterRegWriteRule_fault (s : State) (d : Byte) (r : PpuReg) : (afterRegWriteRule s d r).fault = s.fault := by
  cases r <;> rfl
@[simp] theorem afterRegWriteRule_board (s : State) (d : Byte) (r : PpuReg) : (afterRegWriteRule s d r).board = s.board := by
  cases r <;> rfl
@[simp] theorem afterRegWriteRule_inputs (s : State) (d : Byte) (r : PpuReg) : (afterRegWriteRule s d r).inputs = s.inputs := by
  cases r <;> rfl
@[simp] theorem afterRegWriteRule_framePulses (s : State) (d : Byte) (r : PpuReg) : (afterRegWriteRule s d r).framePulses = s.framePulses := by
  cases r <;> rfl
@[simp] theorem afterRegWriteRule_pad (s : State) (d : Byte) (r : PpuReg) : (afterRegWriteRule s d r).pad = s.pad := by
  cases r <;> rfl
@[simp] theorem afterRegWriteRule_draws (s : State) (d : Byte) (r : PpuReg) : (afterRegWriteRule s d r).draws = s.draws := by
  cases r <;> rfl

@[simp] theorem afterWrite_cpu (s : State) (a : Word) (d : Byte) : (afterWrite s a d).cpu = s.cpu := by
  unfold afterWrite; split <;> simp [afterRegWrite]
@[simp] theorem afterWrite_cycles (s : State) (a : Word) (d : Byte) : (afterWrite s a d).cycles = s.cycles := by
  unfold afterWrite; split <;> simp [afterRegWrite]
@[simp] theorem afterWrite_busLatch (s : State) (a : Word) (d : Byte) : (afterWrite s a d).busLatch = s.busLatch := by
  unfold afterWrite; split <;> simp [afterRegWrite]
@[simp] theorem afterWrite_fault (s : State) (a : Word) (d : Byte) : (afterWrite s a d).fault = s.fault := by
  unfold afterWrite; split <;> simp [afterRegWrite]
@[simp] theorem afterWrite_board (s : State) (a : Word) (d : Byte) : (afterWrite s a d).board = s.board := by
  unfold afterWrite; split <;> simp [afterRegWrite]
@[simp] theorem afterWrite_inputs (s : State) (a : Word) (d : Byte) : (afterWrite s a d).inputs = s.inputs := by
  unfold afterWrite; split <;> simp [afterRegWrite]
@[simp] theorem afterWrite_framePulses (s : State) (a : Word) (d : Byte) : (afterWrite s a d).framePulses = s.framePulses := by
  unfold afterWrite; split <;> simp [afterRegWrite]
@[simp] theorem afterWrite_draws (s : State) (a : Word) (d : Byte) : (afterWrite s a d).draws = s.draws := by
  unfold afterWrite; split <;> simp [afterRegWrite]

end Sys2Proof.Machine
end

