-- ==== Sys2Proof/Laws/Operands.lean ====
section
/-! SUPPORT. What the addressing modes, the operation classes and the stack operations keep, from what one bus access and one
change of the CPU registers keep; and the same for the faults they raise. -/

namespace Sys2Proof.Machine

variable {α β : Type} {R : State → State → Prop} {P : FaultRecord → State → Prop}

/-- Every read keeps `R`. -/
structure ReadKeeps (R : State → State → Prop) : Prop where
  frame : Frame R
  read : ∀ a, Keeps R (memRead a)

/-- Every bus access keeps `R`. -/
structure BusKeeps (R : State → State → Prop) : Prop extends ReadKeeps R where
  write : ∀ a d, Keeps R (memWrite a d)

/-- `m` raises only faults that satisfy `P` with the state at the raise. -/
def Raises (P : FaultRecord → State → Prop) (m : M α) : Prop := ∀ s r t, m s = .error r t → P r t

theorem Raises.bind {m : M α} {f : α → M β} (hm : Raises P m) (hf : ∀ a, Raises P (f a)) : Raises P (m >>= f) := by
  intro s r t h
  rw [bind_eq] at h
  cases hs : m s with
  | ok a u => rw [hs] at h; exact hf _ _ _ _ h
  | error q u => rw [hs] at h; cases h; exact hm _ _ _ hs

theorem Raises.pure (a : α) : Raises P (pure a : M α) := by intro s r t h; cases h

theorem Raises.getCpu : Raises P getCpu := by intro s r t h; cases h

theorem Raises.modifyCpu (f : Cpu → Cpu) : Raises P (modifyCpu f) := by intro s r t h; cases h

theorem Keeps.dummyPc (hR : ReadKeeps R) : Keeps R dummyPc :=
  Keeps.bind hR.frame (Keeps.getCpu hR.frame) fun _ => Keeps.dummy (hR.read _)

theorem Keeps.dummyStack (hR : ReadKeeps R) : Keeps R dummyStack :=
  Keeps.bind hR.frame (Keeps.getCpu hR.frame) fun _ => Keeps.dummy (hR.read _)

theorem Keeps.addrZp (hR : ReadKeeps R) (a : Byte) : Keeps R (addrZp a) := Keeps.pure hR.frame _

theorem Keeps.addrZpIdx (hR : ReadKeeps R) (x : Cpu → Byte) (a : Byte) : Keeps R (addrZpIdx x a) :=
  Keeps.bind hR.frame (Keeps.dummy (hR.read _)) fun _ =>
    Keeps.bind hR.frame (Keeps.getCpu hR.frame) fun _ => Keeps.pure hR.frame _

theorem Keeps.addrZpX (hR : ReadKeeps R) (a : Byte) : Keeps R (addrZpX a) := Keeps.addrZpIdx hR _ a

theorem Keeps.addrZpY (hR : ReadKeeps R) (a : Byte) : Keeps R (addrZpY a) := Keeps.addrZpIdx hR _ a

theorem Keeps.addrAbs (hR : ReadKeeps R) (lo hi : Byte) : Keeps R (addrAbs lo hi) := Keeps.pure hR.frame _

theorem Keeps.addrIndexedRead (hR : ReadKeeps R) (lo hi x : Byte) : Keeps R (addrIndexedRead lo hi x) := by
  unfold Machine.addrIndexedRead
  split
  · exact Keeps.bind hR.frame (Keeps.dummy (hR.read _)) fun _ => Keeps.pure hR.frame _
  · exact Keeps.pure hR.frame _

theorem Keeps.addrIndexedFull (hR : ReadKeeps R) (lo hi x : Byte) : Keeps R (addrIndexedFull lo hi x) :=
  Keeps.bind hR.frame (Keeps.dummy (hR.read _)) fun _ => Keeps.pure hR.frame _

theorem Keeps.addrAbsXRead (hR : ReadKeeps R) (lo hi : Byte) : Keeps R (addrAbsXRead lo hi) :=
  Keeps.bind hR.frame (Keeps.getCpu hR.frame) fun _ => Keeps.addrIndexedRead hR _ _ _

theorem Keeps.addrAbsYRead (hR : ReadKeeps R) (lo hi : Byte) : Keeps R (addrAbsYRead lo hi) :=
  Keeps.bind hR.frame (Keeps.getCpu hR.frame) fun _ => Keeps.addrIndexedRead hR _ _ _

theorem Keeps.addrAbsXFull (hR : ReadKeeps R) (lo hi : Byte) : Keeps R (addrAbsXFull lo hi) :=
  Keeps.bind hR.frame (Keeps.getCpu hR.frame) fun _ => Keeps.addrIndexedFull hR _ _ _

theorem Keeps.addrAbsYFull (hR : ReadKeeps R) (lo hi : Byte) : Keeps R (addrAbsYFull lo hi) :=
  Keeps.bind hR.frame (Keeps.getCpu hR.frame) fun _ => Keeps.addrIndexedFull hR _ _ _

theorem Keeps.addrIndX (hR : ReadKeeps R) (p : Byte) : Keeps R (addrIndX p) :=
  Keeps.bind hR.frame (Keeps.dummy (hR.read _)) fun _ => Keeps.bind hR.frame (Keeps.getCpu hR.frame) fun _ =>
    Keeps.bind hR.frame (hR.read _) fun _ => Keeps.bind hR.frame (hR.read _) fun _ => Keeps.pure hR.frame _

theorem Keeps.addrIndYRead (hR : ReadKeeps R) (p : Byte) : Keeps R (addrIndYRead p) :=
  Keeps.bind hR.frame (hR.read _) fun _ => Keeps.bind hR.frame (hR.read _) fun _ =>
    Keeps.bind hR.frame (Keeps.getCpu hR.frame) fun _ => Keeps.addrIndexedRead hR _ _ _

theorem Keeps.addrIndYFull (hR : ReadKeeps R) (p : Byte) : Keeps R (addrIndYFull p) :=
  Keeps.bind hR.frame (hR.read _) fun _ => Keeps.bind hR.frame (hR.read _) fun _ =>
    Keeps.bind hR.frame (Keeps.getCpu hR.frame) fun _ => Keeps.addrIndexedFull hR _ _ _

/-- The operand of a read-class instruction is read by bus accesses alone. -/
theorem Keeps.readOperand (hR : ReadKeeps R) (i : Instr) : Keeps R (readOperand i) := by
  unfold Machine.readOperand
  split
  · exact Keeps.pure hR.frame _
  · exact Keeps.bind hR.frame (Keeps.addrZp hR _) hR.read
  · exact Keeps.bind hR.frame (Keeps.addrZpX hR _) hR.read
  · exact Keeps.bind hR.frame (Keeps.addrZpY hR _) hR.read
  · exact Keeps.bind hR.frame (Keeps.addrAbs hR _ _) hR.read
  · exact Keeps.bind hR.frame (Keeps.addrAbsXRead hR _ _) hR.read
  · exact Keeps.bind hR.frame (Keeps.addrAbsYRead hR _ _) hR.read
  · exact Keeps.bind hR.frame (Keeps.addrIndX hR _) hR.read
  · exact Keeps.bind hR.frame (Keeps.addrIndYRead hR _) hR.read
  · exact Keeps.pure hR.frame _

/-- The effective address of a storing instruction is formed by bus accesses alone. -/
theorem Keeps.storeAddr (hR : ReadKeeps R) (i : Instr) : Keeps R (storeAddr i) := by
  unfold Machine.storeAddr
  split
  · exact Keeps.addrZp hR _
  · exact Keeps.addrZpX hR _
  · exact Keeps.addrZpY hR _
  · exact Keeps.addrAbs hR _ _
  · exact Keeps.addrAbsXFull hR _ _
  · exact Keeps.addrAbsYFull hR _ _
  · exact Keeps.addrIndX hR _
  · exact Keeps.addrIndYFull hR _
  · exact Keeps.pure hR.frame _

theorem Raises.dummy {a : Word} (h : Raises P (memRead a)) : Raises P (dummy a) :=
  Raises.bind h fun _ => Raises.pure _

/-- Every fault a bus access raises satisfies `P`. -/
structure BusRaises (P : FaultRecord → State → Prop) : Prop where
  read : ∀ a, Raises P (memRead a)
  write : ∀ a d, Raises P (memWrite a d)

theorem Raises.dummyPc (hP : BusRaises P) : Raises P dummyPc :=
  Raises.bind Raises.getCpu fun _ => Raises.dummy (hP.read _)

theorem Raises.dummyStack (hP : BusRaises P) : Raises P dummyStack :=
  Raises.bind Raises.getCpu fun _ => Raises.dummy (hP.read _)

theorem Raises.addrZpIdx (hP : BusRaises P) (x : Cpu → Byte) (a : Byte) : Raises P (addrZpIdx x a) :=
  Raises.bind (Raises.dummy (hP.read _)) fun _ => Raises.bind Raises.getCpu fun _ => Raises.pure _

theorem Raises.addrIndexedRead (hP : BusRaises P) (lo hi x : Byte) : Raises P (addrIndexedRead lo hi x) := by
  unfold Machine.addrIndexedRead
  split
  · exact Raises.bind (Raises.dummy (hP.read _)) fun _ => Raises.pure _
  · exact Raises.pure _

theorem Raises.addrIndexedFull (hP : BusRaises P) (lo hi x : Byte) : Raises P (addrIndexedFull lo hi x) :=
  Raises.bind (Raises.dummy (hP.read _)) fun _ => Raises.pure _

theorem Raises.addrIndX (hP : BusRaises P) (p : Byte) : Raises P (addrIndX p) :=
  Raises.bind (Raises.dummy (hP.read _)) fun _ => Raises.bind Raises.getCpu fun _ =>
    Raises.bind (hP.read _) fun _ => Raises.bind (hP.read _) fun _ => Raises.pure _

theorem Raises.readOperand (hP : BusRaises P) (i : Instr) : Raises P (readOperand i) := by
  unfold Machine.readOperand
  split
  · exact Raises.pure _
  · exact Raises.bind (Raises.pure _) hP.read
  · exact Raises.bind (Raises.addrZpIdx hP _ _) hP.read
  · exact Raises.bind (Raises.addrZpIdx hP _ _) hP.read
  · exact Raises.bind (Raises.pure _) hP.read
  · exact Raises.bind (Raises.bind Raises.getCpu fun _ => Raises.addrIndexedRead hP _ _ _) hP.read
  · exact Raises.bind (Raises.bind Raises.getCpu fun _ => Raises.addrIndexedRead hP _ _ _) hP.read
  · exact Raises.bind (Raises.addrIndX hP _) hP.read
  · exact Raises.bind (Raises.bind (hP.read _) fun _ => Raises.bind (hP.read _) fun _ =>
      Raises.bind Raises.getCpu fun _ => Raises.addrIndexedRead hP _ _ _) hP.read
  · exact Raises.pure _

theorem Raises.storeAddr (hP : BusRaises P) (i : Instr) : Raises P (storeAddr i) := by
  unfold Machine.storeAddr
  split
  · exact Raises.pure _
  · exact Raises.addrZpIdx hP _ _
  · exact Raises.addrZpIdx hP _ _
  · exact Raises.pure _
  · exact Raises.bind Raises.getCpu fun _ => Raises.addrIndexedFull hP _ _ _
  · exact Raises.bind Raises.getCpu fun _ => Raises.addrIndexedFull hP _ _ _
  · exact Raises.addrIndX hP _
  · exact Raises.bind (hP.read _) fun _ => Raises.bind (hP.read _) fun _ =>
      Raises.bind Raises.getCpu fun _ => Raises.addrIndexedFull hP _ _ _
  · exact Raises.pure _

/-- A relation the CPU registers have no part in: it holds of every change of them alone. -/
structure WorkKeeps (R : State → State → Prop) : Prop extends BusKeeps R where
  cpu : ∀ f : Cpu → Cpu, Keeps R (modifyCpu f)

/-- A relation every read and every change of the CPU registers keeps. -/
structure ReadWorkKeeps (R : State → State → Prop) : Prop extends ReadKeeps R where
  cpu : ∀ f : Cpu → Cpu, Keeps R (modifyCpu f)

theorem WorkKeeps.toReadWork (hR : WorkKeeps R) : ReadWorkKeeps R := { toReadKeeps := hR.toReadKeeps, cpu := hR.cpu }

theorem Keeps.push (hR : WorkKeeps R) (v : Byte) : Keeps R (push v) :=
  Keeps.bind hR.frame (Keeps.getCpu hR.frame) fun _ => Keeps.bind hR.frame (hR.write _ _) fun _ => hR.cpu _

theorem Keeps.pull (hR : ReadWorkKeeps R) : Keeps R pull :=
  Keeps.bind hR.frame (hR.cpu _) fun _ => Keeps.bind hR.frame (Keeps.getCpu hR.frame) fun _ => hR.read _

theorem Keeps.setPc (hR : ReadWorkKeeps R) (a : Word) : Keeps R (setPc a) := hR.cpu _

theorem Keeps.fetch (hR : ReadWorkKeeps R) : Keeps R fetch :=
  Keeps.bind hR.frame (Keeps.getCpu hR.frame) fun _ => Keeps.bind hR.frame (hR.read _) fun _ =>
    Keeps.bind hR.frame (hR.cpu _) fun _ => Keeps.pure hR.frame _

theorem Keeps.jumpVector (hR : ReadWorkKeeps R) (v : Word) : Keeps R (jumpVector v) :=
  Keeps.bind hR.frame (hR.read _) fun _ => Keeps.bind hR.frame (hR.read _) fun _ => hR.cpu _

theorem Keeps.takeException (hR : WorkKeeps R) (b : Bool) (v : Word) : Keeps R (takeException b v) :=
  Keeps.bind hR.frame (Keeps.getCpu hR.frame) fun _ => Keeps.bind hR.frame (Keeps.push hR _) fun _ =>
    Keeps.bind hR.frame (Keeps.push hR _) fun _ => Keeps.bind hR.frame (Keeps.push hR _) fun _ =>
      Keeps.bind hR.frame (hR.cpu _) fun _ => Keeps.jumpVector hR.toReadWork v

theorem Keeps.enter (hR : WorkKeeps R) (v : Word) : Keeps R (enter v) :=
  Keeps.bind hR.frame (Keeps.dummyPc hR.toReadKeeps) fun _ =>
    Keeps.bind hR.frame (Keeps.dummyPc hR.toReadKeeps) fun _ => Keeps.takeException hR _ _

theorem Keeps.returnFromException (hR : ReadWorkKeeps R) : Keeps R returnFromException :=
  Keeps.bind hR.frame (Keeps.pull hR) fun _ => Keeps.bind hR.frame (hR.cpu _) fun _ =>
    Keeps.bind hR.frame (Keeps.pull hR) fun _ => Keeps.bind hR.frame (Keeps.pull hR) fun _ => hR.cpu _

theorem Keeps.dmaCopy (hR : BusKeeps R) (p : Byte) (is : List Byte) : Keeps R (dmaCopy p is) := by
  induction is with
  | nil => exact Keeps.pure hR.frame _
  | cons i is ih =>
    exact Keeps.bind hR.frame (hR.read _) fun _ => Keeps.bind hR.frame (hR.write _ _) fun _ => ih

theorem Raises.push (hP : BusRaises P) (v : Byte) : Raises P (push v) :=
  Raises.bind Raises.getCpu fun _ => Raises.bind (hP.write _ _) fun _ => Raises.modifyCpu _

theorem Raises.pull (hP : BusRaises P) : Raises P pull :=
  Raises.bind (Raises.modifyCpu _) fun _ => Raises.bind Raises.getCpu fun _ => hP.read _

theorem Raises.takeException (hP : BusRaises P) (b : Bool) (v : Word) : Raises P (takeException b v) :=
  Raises.bind Raises.getCpu fun _ => Raises.bind (Raises.push hP _) fun _ => Raises.bind (Raises.push hP _) fun _ =>
    Raises.bind (Raises.push hP _) fun _ => Raises.bind (Raises.modifyCpu _) fun _ =>
      Raises.bind (hP.read _) fun _ => Raises.bind (hP.read _) fun _ => Raises.modifyCpu _

theorem Raises.enter (hP : BusRaises P) (v : Word) : Raises P (enter v) :=
  Raises.bind (Raises.dummyPc hP) fun _ => Raises.bind (Raises.dummyPc hP) fun _ => Raises.takeException hP _ _

theorem Raises.returnFromException (hP : BusRaises P) : Raises P returnFromException :=
  Raises.bind (Raises.pull hP) fun _ => Raises.bind (Raises.modifyCpu _) fun _ => Raises.bind (Raises.pull hP) fun _ =>
    Raises.bind (Raises.pull hP) fun _ => Raises.modifyCpu _

theorem Raises.dmaCopy (hP : BusRaises P) (p : Byte) (is : List Byte) : Raises P (dmaCopy p is) := by
  induction is with
  | nil => exact Raises.pure _
  | cons i is ih => exact Raises.bind (hP.read _) fun _ => Raises.bind (hP.write _ _) fun _ => ih

end Sys2Proof.Machine
end

