-- ==== Sys2Proof/Laws/Exec.lean ====
section
/-! SUPPORT. Every instruction's meaning as its class's sequence: what the instruction does with the operand it reads, the
register it stores or the function it modifies memory by, and what every instruction therefore keeps and raises. -/

namespace Sys2Proof.Machine

/-- What a read-class instruction does with its operand, by its mnemonic. -/
def readEffect (i : Instr) : Byte → Cpu → Cpu :=
  if mnemonic i = "LDA" then Cpu.loadA
  else if mnemonic i = "LDX" then Cpu.loadX
  else if mnemonic i = "LDY" then Cpu.loadY
  else if mnemonic i = "ADC" then Cpu.adc
  else if mnemonic i = "SBC" then Cpu.sbc
  else if mnemonic i = "AND" then Cpu.and
  else if mnemonic i = "ORA" then Cpu.ora
  else if mnemonic i = "EOR" then Cpu.eor
  else if mnemonic i = "BIT" then Cpu.bit
  else if mnemonic i = "CMP" then Cpu.cmp
  else if mnemonic i = "CPX" then Cpu.cpx
  else Cpu.cpy

/-- The register a write-class instruction stores, by its mnemonic. -/
def storedRegister (i : Instr) : Cpu → Byte :=
  if mnemonic i = "STA" then Cpu.a else if mnemonic i = "STX" then Cpu.x else Cpu.y

/-- The function of a read-modify-write or accumulator instruction, by its mnemonic. -/
def rmwEffect (i : Instr) : RmwFun :=
  if mnemonic i = "INC" then incFun
  else if mnemonic i = "DEC" then decFun
  else if mnemonic i = "ASL" then aslFun
  else if mnemonic i = "LSR" then lsrFun
  else if mnemonic i = "ROL" then rolFun
  else rorFun

/-- What an implied-mode instruction does to the registers. -/
def impliedEffect : Instr → Cpu → Cpu
  | .tax => fun r => r.loadX r.a
  | .tay => fun r => r.loadY r.a
  | .txa => fun r => r.loadA r.x
  | .tya => fun r => r.loadA r.y
  | .tsx => fun r => r.loadX r.s
  | .txs => fun r => { r with s := r.x }
  | .inx => fun r => r.loadX (r.x + 1#8)
  | .iny => fun r => r.loadY (r.y + 1#8)
  | .dex => fun r => r.loadX (r.x - 1#8)
  | .dey => fun r => r.loadY (r.y - 1#8)
  | .clc => fun r => { r with p := { r.p with c := false } }
  | .sec => fun r => { r with p := { r.p with c := true } }
  | .cli => fun r => { r with p := { r.p with i := false } }
  | .sei => fun r => { r with p := { r.p with i := true } }
  | .cld => fun r => { r with p := { r.p with d := false } }
  | .sed => fun r => { r with p := { r.p with d := true } }
  | .clv => fun r => { r with p := { r.p with v := false } }
  | _ => id

theorem bind_assoc_apply {α β γ : Type} (m : M α) (f : α → M β) (g : β → M γ) (s : State) :
    (m >>= fun a => f a >>= g) s = ((m >>= f) >>= g) s := by
  simp only [bind_eq]
  cases m s <;> rfl

/-- A read-class sequence is its operand's read, then the operation. -/
theorem readClass_apply (f : Byte → Cpu → Cpu) (addr : M Word) (s : State) :
    readClass f addr s = ((addr >>= memRead) >>= fun m => modifyCpu (f m)) s :=
  bind_assoc_apply addr memRead (fun m => modifyCpu (f m)) s

theorem outcome_congr {m n : M Unit} {s : State} (h : m s = n s) : outcome m s = outcome n s := by
  unfold outcome; rw [h]

/-- Every read-class instruction reads its operand and applies its effect. -/
theorem exec_read (i : Instr) (s : State) (h : opClass i = .read) :
    exec i s = outcome (readOperand i >>= fun m => modifyCpu (readEffect i m)) s := by
  cases i <;> first | (cases h; done) | rfl | exact outcome_congr (readClass_apply _ _ s)

/-- Every write-class instruction forms its address and stores its register. -/
theorem exec_write (i : Instr) (s : State) (h : opClass i = .write) :
    exec i s = outcome (writeClass (storedRegister i) (storeAddr i)) s := by
  cases i <;> first | (cases h; done) | rfl

/-- Every read-modify-write instruction on memory is its function at its address. -/
theorem exec_rmw (i : Instr) (s : State) (h : opClass i = .rmw) :
    exec i s = outcome (rmwClass (rmwEffect i) (storeAddr i)) s := by
  cases i <;> first | (cases h; done) | rfl

theorem exec_acc (i : Instr) (s : State) (h : opClass i = .acc) :
    exec i s = outcome (accumulator (rmwEffect i)) s := by
  cases i <;> first | (cases h; done) | rfl

theorem exec_implied (i : Instr) (s : State) (h : opClass i = .implied) :
    exec i s = outcome (implied (impliedEffect i)) s := by
  cases i <;> first | (cases h; done) | rfl

/-- Every branch is the branch sequence on its condition. -/
theorem exec_branch (i : Instr) (s : State) (h : opClass i = .branch) :
    ∃ off, exec i s = outcome (branch (fun p => branchTaken p i) off) s ∧ i.operandBytes = [off] ∧ i.mode = .rel := by
  cases i <;> first | (cases h; done) | exact ⟨_, rfl, rfl, rfl⟩

variable {R : State → State → Prop} {P : FaultRecord → State → Prop}

theorem Keeps.implied (hR : ReadKeeps R) {f : Cpu → Cpu} (hf : Keeps R (Machine.modifyCpu f)) : Keeps R (implied f) :=
  Keeps.bind hR.frame (Keeps.dummyPc hR) fun _ => hf

theorem Keeps.readClass (hR : ReadKeeps R) {i : Instr} (hf : ∀ m, Keeps R (Machine.modifyCpu (readEffect i m))) :
    Keeps R (Machine.readOperand i >>= fun m => Machine.modifyCpu (readEffect i m)) :=
  Keeps.bind hR.frame (Keeps.readOperand hR i) hf

theorem Keeps.writeClass (hR : BusKeeps R) (r : Cpu → Byte) {addr : M Word} (h : Keeps R addr) :
    Keeps R (writeClass r addr) :=
  Keeps.bind hR.frame h fun _ => Keeps.bind hR.frame (Keeps.getCpu hR.frame) fun _ => hR.write _ _

theorem Keeps.rmwClass (hR : BusKeeps R) {f : RmwFun} {addr : M Word} (h : Keeps R addr)
    (hf : ∀ m, Keeps R (Machine.modifyCpu fun r => { r with p := (f r.p m).2 })) : Keeps R (rmwClass f addr) :=
  Keeps.bind hR.frame h fun _ => Keeps.bind hR.frame (hR.read _) fun m => Keeps.bind hR.frame (hR.write _ _) fun _ =>
    Keeps.bind hR.frame (Keeps.getCpu hR.frame) fun _ => Keeps.bind hR.frame (hR.write _ _) fun _ => hf m

theorem Keeps.branchFixPage (hR : ReadKeeps R) (a b : Word) : Keeps R (branchFixPage a b) := by
  unfold Machine.branchFixPage
  split
  · exact Keeps.pure hR.frame _
  · exact Keeps.dummy (hR.read _)

theorem Keeps.branch (hR : ReadKeeps R) (hpc : ∀ a, Keeps R (Machine.setPc a)) (c : Flags → Bool) (off : Byte) :
    Keeps R (Machine.branch c off) := by
  refine Keeps.bind hR.frame (Keeps.getCpu hR.frame) fun r => ?_
  split
  · exact Keeps.bind hR.frame (Keeps.dummy (hR.read _)) fun _ =>
      Keeps.bind hR.frame (Keeps.branchFixPage hR _ _) fun _ => hpc _
  · exact Keeps.pure hR.frame _

/-- What every read and every change of the CPU registers keeps, every instruction that neither stores nor pushes keeps. -/
theorem exec_keeps_read (hR : ReadWorkKeeps R) {i : Instr} {s t : State} (h : exec i s = .next t)
    (hw : opClass i ≠ .write) (hm : opClass i ≠ .rmw) (hp : mnemonic i ∉ ["PHA", "PHP", "JSR", "BRK"]) : R s t := by
  have B := hR.toReadKeeps
  have key : ∀ {m : M Unit}, Keeps R m → outcome m s = .next t → R s t :=
    fun hm ho => hm _ _ _ (outcome_eq_next ho)
  cases hc : opClass i with
  | read => rw [exec_read i s hc] at h; exact key (Keeps.readClass B fun _ => hR.cpu _) h
  | write => exact absurd hc hw
  | rmw => exact absurd hc hm
  | acc => rw [exec_acc i s hc] at h; exact key (Keeps.implied B (hR.cpu _)) h
  | implied => rw [exec_implied i s hc] at h; exact key (Keeps.implied B (hR.cpu _)) h
  | branch =>
    obtain ⟨off, he, -, -⟩ := exec_branch i s hc
    rw [he] at h; exact key (Keeps.branch B (fun _ => hR.cpu _) _ _) h
  | stack =>
    cases i <;> try (cases hc; done)
    · exact absurd (by decide) hp
    · exact absurd (by decide) hp
    · exact key (Keeps.bind B.frame (Keeps.dummyPc B) fun _ => Keeps.bind B.frame (Keeps.dummyStack B) fun _ =>
        Keeps.bind B.frame (Keeps.pull hR) fun _ => hR.cpu _) h
    · exact key (Keeps.bind B.frame (Keeps.dummyPc B) fun _ => Keeps.bind B.frame (Keeps.dummyStack B) fun _ =>
        Keeps.bind B.frame (Keeps.pull hR) fun _ => hR.cpu _) h
  | control =>
    cases i <;> try (cases hc; done)
    · exact key (Keeps.setPc hR _) h
    · exact key (Keeps.bind B.frame (B.read _) fun _ => Keeps.bind B.frame (B.read _) fun _ => Keeps.setPc hR _) h
    · exact absurd (by simp [mnemonic]) hp
    · exact key (Keeps.bind B.frame (Keeps.dummyPc B) fun _ => Keeps.bind B.frame (Keeps.dummyStack B) fun _ =>
        Keeps.bind B.frame (Keeps.pull hR) fun _ => Keeps.bind B.frame (Keeps.pull hR) fun _ =>
          Keeps.bind B.frame (Keeps.dummy (B.read _)) fun _ => Keeps.setPc hR _) h
    · exact absurd (by simp [mnemonic]) hp
    · exact key (Keeps.bind B.frame (Keeps.dummyPc B) fun _ => Keeps.bind B.frame (Keeps.dummyStack B) fun _ =>
        Keeps.returnFromException hR) h

/-- What every bus access and every change of the CPU registers keeps, every instruction keeps. -/
theorem exec_keeps (hR : WorkKeeps R) {i : Instr} {s t : State} (h : exec i s = .next t) : R s t := by
  have B := hR.toBusKeeps
  have A := hR.toReadKeeps
  have key : ∀ {m : M Unit}, Keeps R m → outcome m s = .next t → R s t :=
    fun hm ho => hm _ _ _ (outcome_eq_next ho)
  by_cases hw : opClass i = .write
  · rw [exec_write i s hw] at h; exact key (Keeps.writeClass B _ (Keeps.storeAddr A i)) h
  by_cases hm : opClass i = .rmw
  · rw [exec_rmw i s hm] at h; exact key (Keeps.rmwClass B (Keeps.storeAddr A i) fun _ => hR.cpu _) h
  by_cases hp : mnemonic i ∈ ["PHA", "PHP", "JSR", "BRK"]
  · cases i <;> try (simp [mnemonic] at hp; done)
    · exact key (Keeps.bind B.frame (Keeps.dummyPc A) fun _ => Keeps.bind B.frame (Keeps.getCpu B.frame) fun _ =>
        Keeps.push hR _) h
    · exact key (Keeps.bind B.frame (Keeps.dummyPc A) fun _ => Keeps.bind B.frame (Keeps.getCpu B.frame) fun _ =>
        Keeps.push hR _) h
    · exact key (Keeps.bind B.frame (Keeps.dummyStack A) fun _ => Keeps.bind B.frame (Keeps.getCpu B.frame) fun _ =>
        Keeps.bind B.frame (Keeps.push hR _) fun _ => Keeps.bind B.frame (Keeps.push hR _) fun _ =>
          Keeps.bind B.frame (B.read _) fun _ => Keeps.setPc hR.toReadWork _) h
    · exact key (Keeps.takeException hR _ _) h
  · exact exec_keeps_read hR.toReadWork h hw hm hp

/-- An instruction's fault is one of a bus access. -/
theorem exec_raises (hP : BusRaises P) {i : Instr} {s : State} {f : Fault} (h : exec i s = .fault f) :
    ∃ r t, f = r.toFault t ∧ P r t := by
  have key : ∀ {m : M Unit}, Raises P m → outcome m s = .fault f → ∃ r t, f = r.toFault t ∧ P r t := by
    intro m hm ho
    unfold outcome at ho
    cases hs : m s with
    | ok u t => rw [hs] at ho; cases ho
    | error r t => rw [hs] at ho; cases ho; exact ⟨r, t, rfl, hm _ _ _ hs⟩
  cases hc : opClass i with
  | read =>
    rw [exec_read i s hc] at h
    exact key (Raises.bind (Raises.readOperand hP i) fun _ => Raises.modifyCpu _) h
  | write =>
    rw [exec_write i s hc] at h
    exact key (Raises.bind (Raises.storeAddr hP i) fun _ => Raises.bind Raises.getCpu fun _ => hP.write _ _) h
  | rmw =>
    rw [exec_rmw i s hc] at h
    exact key (Raises.bind (Raises.storeAddr hP i) fun _ => Raises.bind (hP.read _) fun _ =>
      Raises.bind (hP.write _ _) fun _ => Raises.bind Raises.getCpu fun _ => Raises.bind (hP.write _ _) fun _ =>
        Raises.modifyCpu _) h
  | acc =>
    rw [exec_acc i s hc] at h
    exact key (Raises.bind (Raises.dummyPc hP) fun _ => Raises.modifyCpu _) h
  | implied =>
    rw [exec_implied i s hc] at h
    exact key (Raises.bind (Raises.dummyPc hP) fun _ => Raises.modifyCpu _) h
  | branch =>
    obtain ⟨off, he, -, -⟩ := exec_branch i s hc
    rw [he] at h
    refine key (Raises.bind Raises.getCpu fun r => ?_) h
    split
    · refine Raises.bind (Raises.dummy (hP.read _)) fun _ => Raises.bind ?_ fun _ => Raises.modifyCpu _
      unfold branchFixPage
      split
      · exact Raises.pure _
      · exact Raises.dummy (hP.read _)
    · exact Raises.pure _
  | stack =>
    cases i <;> try (cases hc; done)
    · exact key (Raises.bind (Raises.dummyPc hP) fun _ => Raises.bind Raises.getCpu fun _ => Raises.push hP _) h
    · exact key (Raises.bind (Raises.dummyPc hP) fun _ => Raises.bind Raises.getCpu fun _ => Raises.push hP _) h
    · exact key (Raises.bind (Raises.dummyPc hP) fun _ => Raises.bind (Raises.dummyStack hP) fun _ =>
        Raises.bind (Raises.pull hP) fun _ => Raises.modifyCpu _) h
    · exact key (Raises.bind (Raises.dummyPc hP) fun _ => Raises.bind (Raises.dummyStack hP) fun _ =>
        Raises.bind (Raises.pull hP) fun _ => Raises.modifyCpu _) h
  | control =>
    cases i <;> try (cases hc; done)
    · exact key (m := setPc _) (Raises.modifyCpu _) h
    · exact key (Raises.bind (hP.read _) fun _ => Raises.bind (hP.read _) fun _ => Raises.modifyCpu _) h
    · exact key (Raises.bind (Raises.dummyStack hP) fun _ => Raises.bind Raises.getCpu fun _ =>
        Raises.bind (Raises.push hP _) fun _ => Raises.bind (Raises.push hP _) fun _ =>
          Raises.bind (hP.read _) fun _ => Raises.modifyCpu _) h
    · exact key (Raises.bind (Raises.dummyPc hP) fun _ => Raises.bind (Raises.dummyStack hP) fun _ =>
        Raises.bind (Raises.pull hP) fun _ => Raises.bind (Raises.pull hP) fun _ =>
          Raises.bind (Raises.dummy (hP.read _)) fun _ => Raises.modifyCpu _) h
    · exact key (Raises.takeException hP _ _) h
    · exact key (Raises.bind (Raises.dummyPc hP) fun _ => Raises.bind (Raises.dummyStack hP) fun _ =>
        Raises.returnFromException hP) h

/-- An instruction never refuses. -/
theorem exec_not_refused (i : Instr) (s : State) (f : Refusal) : exec i s ≠ .refused f := by
  by_cases h : opClass i = .read
  · rw [exec_read i s h]; exact outcome_not_refused _ _ _
  · cases i <;> first | exact absurd rfl h | exact outcome_not_refused _ _ _ | exact outcome_not_refused (setPc _) _ _

end Sys2Proof.Machine
end

