-- ==== Sys2Proof/Laws/Step.lean ====
section
/-! SUPPORT. What a step begins with: the interrupt check, and the fetch of an instruction from plain memory. -/

namespace Sys2Proof.Machine

theorem holdsCode_not_ppu {a : Word} (h : holdsCode a = true) (r : PpuReg) : decodeAddr a ≠ .ppu r := by
  intro hd; simp [holdsCode, hd] at h

/-- A byte of plain memory depends on RAM and the cartridge alone. -/
theorem readByte_plain {a : Word} (h : holdsCode a = true) {s t : State} (hr : t.ram = s.ram) (hb : t.board = s.board) :
    readByte t a = readByte s a := by
  unfold holdsCode at h
  unfold readByte
  cases hd : decodeAddr a <;> simp only [hd] at h ⊢ <;> first | exact absurd h (by decide) | rw [hr] | rw [hb]

/-- A read of plain memory changes the latch and the time alone. -/
theorem memRead_plain {a : Word} (h : holdsCode a = true) (s : State) :
    memRead a s = .ok (readByte s a) (endCycle { s with busLatch := readByte s a }) := by
  rw [memRead_ok (readFault_of_not_ppu (holdsCode_not_ppu h))]
  have : afterRead s a = s := by
    unfold holdsCode at h
    unfold afterRead
    cases hd : decodeAddr a <;> simp only [hd] at h ⊢ <;> exact absurd h (by decide)
  rw [this]

/-- A fetch from plain memory. -/
theorem fetch_plain {s : State} (h : holdsCode s.cpu.pc = true) :
    fetch s = .ok (readByte s s.cpu.pc) (fetchCycle s) := by
  simp only [fetch, bind_eq, getCpu_apply, memRead_plain h, setPc_apply, pure_apply, fetchCycle, endCycle_cpu]

@[simp] theorem fetchCycle_pc (s : State) : (fetchCycle s).cpu.pc = s.cpu.pc + 1#16 := by simp [fetchCycle]
@[simp] theorem fetchCycle_ram (s : State) : (fetchCycle s).ram = s.ram := by simp [fetchCycle]
@[simp] theorem fetchCycle_board (s : State) : (fetchCycle s).board = s.board := by simp [fetchCycle]
@[simp] theorem fetchCycle_cycles (s : State) : (fetchCycle s).cycles = s.cycles + 1 := by simp [fetchCycle]
@[simp] theorem fetchCycle_fault (s : State) : (fetchCycle s).fault = s.fault := by simp [fetchCycle]
@[simp] theorem fetchCycle_inputs (s : State) : (fetchCycle s).inputs = s.inputs := by simp [fetchCycle]

/-- With no interrupt due the check does nothing. -/
theorem interruptDue_none {s : State} (h1 : s.nmi.pending = false) (h2 : s.inputs.irqN = true ∨ s.cpu.p.i = true) :
    interruptDue s = .ok false s := by
  unfold interruptDue
  rcases h2 with h2 | h2 <;> simp [h1, h2]

/-- With no fault and no reset request a step is the boundary's. -/
theorem step_boundary {s : State} (h1 : s.fault = none) (h2 : s.inputs.resetReq = false) :
    step s = runBoundary { s with framePulses := [] } := by
  unfold step controlStep
  split
  · next r h => rw [h1] at h; cases h
  · rw [if_neg (by simp [h2])]

theorem runBoundary_none {s : State} (h : interruptDue s = .ok false s) : runBoundary s = runInstr s := by
  unfold runBoundary; rw [h]

/-- A step that begins with a fetch is the instruction. -/
theorem step_fetches {s : State} (h : s.fetchesNext) : step s = runInstr { s with framePulses := [] } := by
  obtain ⟨h1, h2, h3, h4⟩ := h
  rw [step_boundary h1 h2]
  exact runBoundary_none (interruptDue_none h3 h4)

variable {R : State → State → Prop} {P : FaultRecord → State → Prop}

/-- What every part of a step keeps. -/
structure StepKeeps (R : State → State → Prop) : Prop extends WorkKeeps R where
  cycle : ∀ s, R s (endCycle s)
  clearNmi : ∀ s : State, R s { s with nmi := { s.nmi with pending := false } }
  startDma : ∀ s : State, R s { s with dmaRequest := none }
  clearPulses : ∀ s : State, R s { s with framePulses := [] }
  reset : Keeps R takeReset

theorem Keeps.idle (hR : StepKeeps R) : Keeps R idle := by
  intro s a t h; cases h; exact hR.cycle s

theorem Keeps.runDma (hR : StepKeeps R) (p : Byte) : Keeps R (runDma p) := by
  intro s a t h
  unfold Machine.runDma at h
  refine hR.frame.trans (hR.startDma s) ?_
  split at h
  · exact Keeps.bind hR.frame (Keeps.idle hR) (fun _ => Keeps.bind hR.frame (Keeps.idle hR) fun _ =>
      Keeps.dmaCopy hR.toBusKeeps p _) _ _ _ h
  · exact Keeps.bind hR.frame (Keeps.idle hR) (fun _ => Keeps.dmaCopy hR.toBusKeeps p _) _ _ _ h

theorem Keeps.runRequestedDma (hR : StepKeeps R) : Keeps R runRequestedDma := by
  intro s a t h
  unfold Machine.runRequestedDma at h
  split at h
  · cases h; exact hR.frame.refl s
  · exact Keeps.runDma hR _ _ _ _ h

theorem Keeps.interruptDue (hR : StepKeeps R) : Keeps R interruptDue := by
  intro s a t h
  unfold Machine.interruptDue at h
  split at h
  · refine Keeps.bind hR.frame ?_ (fun _ => Keeps.bind hR.frame (Keeps.enter hR.toWorkKeeps _) fun _ =>
      Keeps.pure hR.frame _) _ _ _ h
    intro s a t h; cases h; exact hR.clearNmi s
  · split at h
    · exact Keeps.bind hR.frame (Keeps.enter hR.toWorkKeeps _) (fun _ => Keeps.pure hR.frame _) _ _ _ h
    · cases h; exact hR.frame.refl s

theorem Keeps.fetchOperands (hR : WorkKeeps R) (e : OpEntry) : Keeps R (fetchOperands e) := by
  cases e with
  | bare i => exact Keeps.pure hR.frame _
  | one f => exact Keeps.bind hR.frame (Keeps.fetch hR.toReadWork) fun _ => Keeps.pure hR.frame _
  | two f =>
    exact Keeps.bind hR.frame (Keeps.fetch hR.toReadWork) fun _ => Keeps.bind hR.frame (Keeps.fetch hR.toReadWork) fun _ =>
      Keeps.pure hR.frame _
  | twoLate f =>
    refine Keeps.bind hR.frame (Keeps.fetch hR.toReadWork) fun _ => Keeps.bind hR.frame ?_ fun _ => Keeps.pure hR.frame _
    intro s a t h; cases h; exact hR.frame.refl s

theorem Keeps.fetchInstr (hR : WorkKeeps R) : Keeps R fetchInstr := by
  refine Keeps.bind hR.frame (Keeps.getCpu hR.frame) fun r => Keeps.bind hR.frame (Keeps.fetch hR.toReadWork) fun op => ?_
  split
  · intro s a t h; cases h
  · exact Keeps.fetchOperands hR _

/-- What every part of a step keeps, every step keeps. -/
theorem step_keeps (hR : StepKeeps R) {s t : State} (h : step s = .next t) : R s t := by
  unfold step controlStep at h
  split at h
  · cases h
  · refine hR.frame.trans (hR.clearPulses s) ?_
    split at h
    · exact hR.reset _ _ _ (outcome_eq_next h)
    · unfold runBoundary at h
      split at h
      · cases h
      · next u hi => cases h; exact Keeps.interruptDue hR _ _ _ hi
      · next u hi =>
        refine hR.frame.trans (Keeps.interruptDue hR _ _ _ hi) ?_
        unfold runInstr at h
        split at h
        · cases h
        · next i v hf =>
          refine hR.frame.trans (Keeps.fetchInstr hR.toWorkKeeps _ _ _ hf) ?_
          split at h
          · next w he =>
            exact hR.frame.trans (exec_keeps hR.toWorkKeeps he) (Keeps.runRequestedDma hR _ _ _ (outcome_eq_next h))
          · cases h
          · cases h

theorem Raises.idle : Raises P idle := by intro s r t h; cases h

theorem Raises.runRequestedDma (hP : BusRaises P) : Raises P runRequestedDma := by
  intro s r t h
  unfold Machine.runRequestedDma at h
  split at h
  · cases h
  · unfold runDma at h
    split at h
    · exact Raises.bind Raises.idle (fun _ => Raises.bind Raises.idle fun _ => Raises.dmaCopy hP _ _) _ _ _ h
    · exact Raises.bind Raises.idle (fun _ => Raises.dmaCopy hP _ _) _ _ _ h

theorem Raises.interruptDue (hP : BusRaises P) : Raises P interruptDue := by
  intro s r t h
  unfold Machine.interruptDue at h
  split at h
  · refine Raises.bind ?_ (fun _ => Raises.bind (Raises.enter hP _) fun _ => Raises.pure _) _ _ _ h
    intro s r t h; cases h
  · split at h
    · exact Raises.bind (Raises.enter hP _) (fun _ => Raises.pure _) _ _ _ h
    · cases h

theorem Raises.fetch (hP : BusRaises P) : Raises P fetch :=
  Raises.bind Raises.getCpu fun _ => Raises.bind (hP.read _) fun _ => Raises.bind (Raises.modifyCpu _) fun _ =>
    Raises.pure _

theorem Raises.fetchOperands (hP : BusRaises P) (e : OpEntry) : Raises P (fetchOperands e) := by
  cases e with
  | bare i => exact Raises.pure _
  | one f => exact Raises.bind (Raises.fetch hP) fun _ => Raises.pure _
  | two f => exact Raises.bind (Raises.fetch hP) fun _ => Raises.bind (Raises.fetch hP) fun _ => Raises.pure _
  | twoLate f =>
    refine Raises.bind (Raises.fetch hP) fun _ => Raises.bind ?_ fun _ => Raises.pure _
    intro s r t h; cases h

end Sys2Proof.Machine
end

