-- ==== Sys2Proof/Laws/Frames.lean ====
section
/-! SUPPORT. Everything one bus access can change, said once for a read and once for a write: the registers it keeps, the
one cell a write goes to, the time it takes, when it faults, and that it keeps the invariant. -/

namespace Sys2Proof.Machine

theorem ppuDot_cell (s : State) (l : Loc) : (ppuDot s).cell l = s.cell l := by cases l <;> rfl

/-- A register read stores nothing. -/
theorem afterRead_cell (s : State) (a : Word) (l : Loc) : (afterRead s a).cell l = s.cell l := by
  unfold afterRead
  split <;> try rfl
  next r _ =>
    rw [afterRegRead, setIoLatch_cell]
    cases r <;> cases l <;> rfl

theorem ppuSpaceWrite_cell (s : State) (a : Word) (d : Byte) (v : BitVec 15) (l : Loc)
    (h : ppuSpaceLoc s.board a ≠ some l) :
    State.cell { s with ppu := { ppuSpaceWrite s.board s.ppu a d with v := v } } l = s.cell l := by
  unfold ppuSpaceLoc at h
  unfold ppuSpaceWrite
  split
  · cases l <;> rfl
  · next h1 =>
    rw [if_neg h1] at h
    split
    · next h2 =>
      rw [if_pos h2] at h
      cases l <;> first | rfl | skip
      exact Memory.read_write_other _ _ fun e => h (by rw [e])
    · next h2 =>
      rw [if_neg h2] at h
      cases l <;> first | rfl | skip
      simp only [State.cell]
      rw [Memory.read_write_other _ _ fun e => h (by rw [e])]

/-- A write stores to the one cell `storeLoc` names. -/
theorem afterWrite_cell (s : State) (a : Word) (d : Byte) (l : Loc) (h : storeLoc s a ≠ some l) :
    (afterWrite s a d).cell l = s.cell l := by
  unfold storeLoc at h
  unfold afterWrite
  cases hd : decodeAddr a with
  | ram i =>
    rw [hd] at h
    cases l <;> first | rfl | skip
    exact Memory.read_write_other _ _ fun e => h (by rw [e])
  | ppu r =>
    rw [hd] at h
    simp only [afterRegWrite]
    rw [setIoLatch_cell]
    cases r with
    | oamdata =>
      cases l <;> first | rfl | skip
      exact Memory.read_write_other _ _ fun e => h (by rw [e])
    | ppudata => exact ppuSpaceWrite_cell s _ d _ l h
    | ppuscroll =>
      simp only [afterRegWriteRule, Ppu.writeScroll]
      split <;> cases l <;> rfl
    | ppuaddr =>
      simp only [afterRegWriteRule, Ppu.writeAddr]
      split <;> cases l <;> rfl
    | _ => cases l <;> rfl
  | _ => rfl

theorem ppuDot_pending (s : State) : (ppuDot s).nmi.pending = s.nmi.pending := rfl

theorem nmiCheck_pending (s : State) (h : s.nmi.pending = true) : (nmiCheck s).nmi.pending = true := by
  simp [nmiCheck, h]

theorem endCycle_pending (s : State) (h : s.nmi.pending = true) : (endCycle s).nmi.pending = true :=
  nmiCheck_pending _ (nmiCheck_pending _ (nmiCheck_pending _ h))

theorem afterRead_pending (s : State) (a : Word) (h : s.nmi.pending = true) : (afterRead s a).nmi.pending = true := by
  unfold afterRead
  split <;> try exact h
  next r _ => cases r <;> first | exact h | exact nmiCheck_pending _ h

theorem afterWrite_pending (s : State) (a : Word) (d : Byte) (h : s.nmi.pending = true) :
    (afterWrite s a d).nmi.pending = true := by
  unfold afterWrite
  split <;> try exact h
  next r _ => cases r <;> first | exact h | exact nmiCheck_pending _ h

/-- Everything a read that completes keeps, and the time it takes. -/
theorem memRead_frame {s t : State} {a : Word} {b : Byte} (h : memRead a s = .ok b t) :
    b = readByte s a ∧ t.cpu = s.cpu ∧ t.cycles = s.cycles + 1 ∧ t.ram = s.ram ∧ t.fault = s.fault ∧ t.board = s.board ∧
      t.inputs = s.inputs ∧ t.dmaRequest = s.dmaRequest ∧ t.busLatch = b ∧ (∀ l, t.cell l = s.cell l) ∧
      (s.nmi.pending = true → t.nmi.pending = true) := by
  obtain ⟨-, h1, h2⟩ := memRead_eq_ok h
  subst h1 h2
  refine ⟨rfl, by simp, by simp, by simp, by simp, by simp, by simp, by simp, by simp, fun l => ?_, fun hp => ?_⟩
  · rw [endCycle_cell]
    rw [← afterRead_cell s a l]
    cases l <;> rfl
  · exact endCycle_pending _ (afterRead_pending s a hp)

@[simp] theorem busReads_nil (s : State) : busReads [] s = .ok () s := rfl

theorem busReads_cons (a : Word) (as : List Word) : busReads (a :: as) = memRead a >>= fun _ => busReads as := rfl

/-- Everything a list of bus reads that completes keeps, and the time it takes. -/
theorem busReads_frame {as : List Word} {s t : State} {u : Unit} (h : busReads as s = .ok u t) :
    t.cpu = s.cpu ∧ t.cycles = s.cycles + as.length ∧ t.ram = s.ram ∧ t.board = s.board ∧ ∀ l, t.cell l = s.cell l := by
  induction as generalizing s with
  | nil =>
    obtain rfl : s = t := by injection h
    exact ⟨rfl, rfl, rfl, rfl, fun _ => rfl⟩
  | cons a as ih =>
    rw [busReads_cons] at h
    obtain ⟨b, v, h1, h2⟩ := bind_eq_ok h
    obtain ⟨-, p1, c1, r1, -, b1, -, -, -, l1, -⟩ := memRead_frame h1
    obtain ⟨p2, c2, r2, b2, l2⟩ := ih h2
    exact ⟨p2.trans p1, by rw [c2, c1, List.length_cons]; omega, r2.trans r1, b2.trans b1, fun l => (l2 l).trans (l1 l)⟩

/-- Everything a write that completes keeps, and the time it takes. -/
theorem memWrite_frame {s t : State} {a : Word} {d : Byte} {u : Unit} (h : memWrite a d s = .ok u t) :
    t.cpu = s.cpu ∧ t.cycles = s.cycles + 1 ∧ t.fault = s.fault ∧ t.board = s.board ∧ t.inputs = s.inputs ∧
      t.busLatch = d ∧ (∀ l, storeLoc s a ≠ some l → t.cell l = s.cell l) ∧
      (s.nmi.pending = true → t.nmi.pending = true) := by
  obtain ⟨-, h2⟩ := memWrite_eq_ok h
  subst h2
  refine ⟨by simp, by simp, by simp, by simp, by simp, by simp, fun l hl => ?_, fun hp => ?_⟩
  · rw [endCycle_cell, ← afterWrite_cell s a d l hl]
    cases l <;> rfl
  · exact endCycle_pending _ (afterWrite_pending s a d hp)

/-- A cell of RAM a write goes to holds the byte written. -/
theorem memWrite_cell_ram {s t : State} {a : Word} {d : Byte} {u : Unit} {k : Nat} (hd : decodeAddr a = .ram k)
    (h : memWrite a d s = .ok u t) : t.cell (.ram k) = d := by
  rw [memWrite_ram hd] at h
  cases h
  simp [State.cell]

/-- The address PPUDATA presents lies in the PPU space. -/
theorem dataAddr_lt (p : Ppu) : p.dataAddr.toNat < 0x4000 := by
  have : (p.v.setWidth 14).toNat < 2 ^ 14 := (p.v.setWidth 14).isLt
  simp only [Ppu.dataAddr, BitVec.toNat_setWidth] at *
  omega

theorem ppuSpaceFault_dataAddr (p : Ppu) : ppuSpaceFault p.dataAddr = none := by
  have := dataAddr_lt p
  unfold ppuSpaceFault; rw [if_neg (by omega)]

theorem bufferAddr_lt (p : Ppu) : p.bufferAddr.toNat < 0x4000 := by
  have := dataAddr_lt p
  unfold Ppu.bufferAddr
  split
  · exact this
  · next h =>
    rw [BitVec.toNat_sub]
    simp only [BitVec.toNat_ofNat]
    omega

theorem ppuSpaceFault_bufferAddr (p : Ppu) : ppuSpaceFault p.bufferAddr = none := by
  have := bufferAddr_lt p
  unfold ppuSpaceFault; rw [if_neg (by omega)]

/-- When a register read faults: a PPUDATA read while rendering. -/
theorem regReadFault_eq (s : State) (r : PpuReg) :
    regReadFault s r = if r = .ppudata ∧ s.ppu.inRender = true then some (s.ppu.renderingFault .ppudata .read) else none := by
  cases r <;> simp [regReadFault, ppuSpaceFault_dataAddr, ppuSpaceFault_bufferAddr]

/-- When a register write faults: a PPUDATA or OAMDATA write while rendering. -/
theorem regWriteFault_eq (s : State) (r : PpuReg) :
    regWriteFault s r =
      if (r = .ppudata ∨ r = .oamdata) ∧ s.ppu.inRender = true then some (s.ppu.renderingFault r .write) else none := by
  cases r <;> simp [regWriteFault, ppuSpaceFault_dataAddr]

/-- With rendering off no read faults. -/
theorem readFault_off {s : State} (h : s.renderingOff) (a : Word) : readFault s a = none := by
  unfold readFault
  split
  · simp [regReadFault_eq, Ppu.inRender, show s.ppu.renderingEnabled = false from h]
  · rfl

/-- With rendering off no write faults. -/
theorem writeFault_off {s : State} (h : s.renderingOff) (a : Word) : writeFault s a = none := by
  unfold writeFault
  split
  · simp [regWriteFault_eq, Ppu.inRender, show s.ppu.renderingEnabled = false from h]
  · rfl

/-- No read faults at an address that is fault-free. -/
theorem readFault_free {s : State} {a : Word} (h : faultFree s a) : readFault s a = none := by
  rcases h with h | h
  · exact readFault_off h a
  · exact readFault_of_not_ppu h

theorem afterRead_mask (s : State) (a : Word) : (afterRead s a).ppu.mask = s.ppu.mask := by
  unfold afterRead
  split <;> try rfl
  next r _ => cases r <;> rfl

/-- A read leaves PPUMASK alone, so rendering stays off. -/
theorem memRead_renderingOff {s t : State} {a : Word} {b : Byte} (h : memRead a s = .ok b t) (hs : s.renderingOff) :
    t.renderingOff := by
  obtain ⟨-, -, h2⟩ := memRead_eq_ok h
  subst h2
  show Ppu.renderingEnabled _ = false
  rw [endCycle_renderingEnabled]
  have := afterRead_mask s a
  unfold State.renderingOff Ppu.renderingEnabled at *
  simp only [this]; exact hs

/-- With rendering off a read completes, and leaves it off. -/
theorem memRead_off {s : State} (h : s.renderingOff) (a : Word) :
    ∃ t, memRead a s = .ok (readByte s a) t ∧ t.renderingOff :=
  ⟨_, memRead_ok (readFault_off h a), memRead_renderingOff (memRead_ok (readFault_off h a)) h⟩

/-- A mask twice is a mask once. -/
theorem oamMask_oamMask (i : Nat) (d : Byte) : oamMask i (oamMask i d) = oamMask i d := by
  unfold oamMask; split <;> simp [BitVec.and_assoc]

/-- OAM made from contents is in canonical form, and holds no unimplemented bit. -/
theorem wf_oamOf (f : Nat → Byte) : Memory.wf Config.oamSize (oamOf f) := Memory.wf_tabulate _ _

theorem oamOf_mask (f : Nat → Byte) {c : Nat × Byte} (h : c ∈ oamOf f) : oamMask c.1 c.2 = c.2 := by
  obtain ⟨-, h2, -, h4⟩ := Memory.mem_ofListFrom h
  simp only [List.length_map, List.length_range, Nat.zero_add] at h2
  have : c.2 = oamMask c.1 (f c.1) := by
    rw [← h4]
    simp [List.getD_eq_getElem?_getD, h2]
  rw [this, oamMask_oamMask]

/-- The memories a reset draws are in canonical form. -/
theorem resetDraw_wf (n : Nat) :
    Memory.wf Config.vramSize (resetDraw n).vram ∧ Memory.wf Config.palSize (resetDraw n).pal ∧
      Memory.wf Config.oamSize (resetDraw n).oam := by
  have h1 := Memory.wf_tabulate Config.vramSize (Config.resetVram n)
  have h2 := Memory.wf_tabulate Config.palSize (Config.resetPal n)
  have h3 := wf_oamOf (Config.resetOam n)
  unfold resetDraw
  dsimp only
  exact ⟨h1, h2, h3⟩

/-- The memories of a power-on draw are in canonical form. -/
theorem ppuDraw_wf (d : PowerOn) :
    Memory.wf Config.vramSize d.ppuDraw.vram ∧ Memory.wf Config.palSize d.ppuDraw.pal ∧
      Memory.wf Config.oamSize d.ppuDraw.oam := by
  have h1 := Memory.wf_ofList Config.vramSize d.vram
  have h2 := Memory.wf_ofList Config.palSize d.pal
  have h3 := wf_oamOf fun i => d.oam.getD i 0x00
  simp only [PowerOn.ppuDraw]
  exact ⟨h1, h2, h3⟩

/-- The cartridge a block is built with is in canonical form. -/
theorem boardOf_ok (c : CartImage) (mode : OpenBusMode) : (boardOf c mode).ok :=
  And.intro (Memory.wf_ofList _ _) (Memory.wf_ofList _ _)

theorem palIndex_lt (a : Word) : palIndex a < Config.palSize := by
  have : (a &&& 0x001F#16).toNat < 32 := by
    rw [BitVec.toNat_and]; exact lt_of_le_of_lt Nat.and_le_right (by decide)
  show palIndex a < 32
  unfold palIndex; simp only; split <;> omega

theorem ntIndex_lt (m : Mirroring) (a : Word) : ntIndex m a < Config.vramSize := by
  have : ((a - 0x2000#16) &&& 0x0FFF#16 &&& 0x03FF#16).toNat < 1024 := by
    rw [BitVec.toNat_and]; exact lt_of_le_of_lt Nat.and_le_right (by decide)
  show ntIndex m a < 2048
  unfold ntIndex; simp only; split <;> split <;> omega

/-- A write to the PPU space keeps the canonical form of the PPU's memories. -/
theorem ppuSpaceWrite_wf (b : Board) (p : Ppu) (a : Word) (d : Byte) (h : p.memoriesOk) :
    (ppuSpaceWrite b p a d).memoriesOk := by
  unfold ppuSpaceWrite
  split
  · exact h
  · split
    · exact And.intro (Memory.wf_write _ (ntIndex_lt _ _) h.1) h.2
    · exact And.intro h.1 (And.intro (Memory.wf_write _ (palIndex_lt _) h.2.1) h.2.2)

/-- A CPU write keeps the canonical form of every memory. -/
theorem afterWrite_wf (s : State) (a : Word) (d : Byte) (h1 : s.ppu.memoriesOk) (h2 : Memory.wf Config.ramSize s.ram) :
    (afterWrite s a d).ppu.memoriesOk ∧ Memory.wf Config.ramSize (afterWrite s a d).ram := by
  unfold afterWrite
  split
  · next i hi => exact ⟨h1, Memory.wf_write d (decodeAddr_ram_lt hi) h2⟩
  · next r _ =>
    cases r with
    | oamdata => exact ⟨And.intro h1.1 (And.intro h1.2.1 (Memory.wf_write _ (BitVec.isLt _) h1.2.2)), h2⟩
    | ppudata => exact ⟨ppuSpaceWrite_wf s.board s.ppu _ d h1, h2⟩
    | ppuscroll => simp only [afterRegWrite, afterRegWriteRule, Ppu.writeScroll]; split <;> exact ⟨h1, h2⟩
    | ppuaddr => simp only [afterRegWrite, afterRegWriteRule, Ppu.writeAddr]; split <;> exact ⟨h1, h2⟩
    | _ => exact ⟨h1, h2⟩
  all_goals exact ⟨h1, h2⟩

end Sys2Proof.Machine
end

