-- ==== Sys2Proof/Laws/PerInstr.lean ====
section
/-! SUPPORT. The per-instruction family `EncodingLength`: an instruction's encoding is its opcode byte followed by its operand
bytes, as many bytes as its length, and its opcode has an entry in the table (30_encoding R200, R202, R222). -/

namespace Sys2Proof.Laws.EncodingLength

/-- What is said of each instruction. -/
def Statement (i : Instr) : Prop :=
  (encode i).length = i.length ∧ (encode i).head? = some i.opcode ∧ (opEntry i.opcode).isSome = true

theorem ldaImm (imm8 : Byte) : Statement (.ldaImm imm8) := ⟨rfl, rfl, rfl⟩
theorem ldaZp (a8 : Byte) : Statement (.ldaZp a8) := ⟨rfl, rfl, rfl⟩
theorem ldaZpX (a8 : Byte) : Statement (.ldaZpX a8) := ⟨rfl, rfl, rfl⟩
theorem ldaAbs (lo8 hi8 : Byte) : Statement (.ldaAbs lo8 hi8) := ⟨rfl, rfl, rfl⟩
theorem ldaAbsX (lo8 hi8 : Byte) : Statement (.ldaAbsX lo8 hi8) := ⟨rfl, rfl, rfl⟩
theorem ldaAbsY (lo8 hi8 : Byte) : Statement (.ldaAbsY lo8 hi8) := ⟨rfl, rfl, rfl⟩
theorem ldaIndX (p8 : Byte) : Statement (.ldaIndX p8) := ⟨rfl, rfl, rfl⟩
theorem ldaIndY (p8 : Byte) : Statement (.ldaIndY p8) := ⟨rfl, rfl, rfl⟩
theorem ldxImm (imm8 : Byte) : Statement (.ldxImm imm8) := ⟨rfl, rfl, rfl⟩
theorem ldxZp (a8 : Byte) : Statement (.ldxZp a8) := ⟨rfl, rfl, rfl⟩
theorem ldxZpY (a8 : Byte) : Statement (.ldxZpY a8) := ⟨rfl, rfl, rfl⟩
theorem ldxAbs (lo8 hi8 : Byte) : Statement (.ldxAbs lo8 hi8) := ⟨rfl, rfl, rfl⟩
theorem ldxAbsY (lo8 hi8 : Byte) : Statement (.ldxAbsY lo8 hi8) := ⟨rfl, rfl, rfl⟩
theorem ldyImm (imm8 : Byte) : Statement (.ldyImm imm8) := ⟨rfl, rfl, rfl⟩
theorem ldyZp (a8 : Byte) : Statement (.ldyZp a8) := ⟨rfl, rfl, rfl⟩
theorem ldyZpX (a8 : Byte) : Statement (.ldyZpX a8) := ⟨rfl, rfl, rfl⟩
theorem ldyAbs (lo8 hi8 : Byte) : Statement (.ldyAbs lo8 hi8) := ⟨rfl, rfl, rfl⟩
theorem ldyAbsX (lo8 hi8 : Byte) : Statement (.ldyAbsX lo8 hi8) := ⟨rfl, rfl, rfl⟩
theorem staZp (a8 : Byte) : Statement (.staZp a8) := ⟨rfl, rfl, rfl⟩
theorem staZpX (a8 : Byte) : Statement (.staZpX a8) := ⟨rfl, rfl, rfl⟩
theorem staAbs (lo8 hi8 : Byte) : Statement (.staAbs lo8 hi8) := ⟨rfl, rfl, rfl⟩
theorem staAbsX (lo8 hi8 : Byte) : Statement (.staAbsX lo8 hi8) := ⟨rfl, rfl, rfl⟩
theorem staAbsY (lo8 hi8 : Byte) : Statement (.staAbsY lo8 hi8) := ⟨rfl, rfl, rfl⟩
theorem staIndX (p8 : Byte) : Statement (.staIndX p8) := ⟨rfl, rfl, rfl⟩
theorem staIndY (p8 : Byte) : Statement (.staIndY p8) := ⟨rfl, rfl, rfl⟩
theorem stxZp (a8 : Byte) : Statement (.stxZp a8) := ⟨rfl, rfl, rfl⟩
theorem stxZpY (a8 : Byte) : Statement (.stxZpY a8) := ⟨rfl, rfl, rfl⟩
theorem stxAbs (lo8 hi8 : Byte) : Statement (.stxAbs lo8 hi8) := ⟨rfl, rfl, rfl⟩
theorem styZp (a8 : Byte) : Statement (.styZp a8) := ⟨rfl, rfl, rfl⟩
theorem styZpX (a8 : Byte) : Statement (.styZpX a8) := ⟨rfl, rfl, rfl⟩
theorem styAbs (lo8 hi8 : Byte) : Statement (.styAbs lo8 hi8) := ⟨rfl, rfl, rfl⟩
theorem tax : Statement .tax := ⟨rfl, rfl, rfl⟩
theorem tay : Statement .tay := ⟨rfl, rfl, rfl⟩
theorem txa : Statement .txa := ⟨rfl, rfl, rfl⟩
theorem tya : Statement .tya := ⟨rfl, rfl, rfl⟩
theorem tsx : Statement .tsx := ⟨rfl, rfl, rfl⟩
theorem txs : Statement .txs := ⟨rfl, rfl, rfl⟩
theorem pha : Statement .pha := ⟨rfl, rfl, rfl⟩
theorem php : Statement .php := ⟨rfl, rfl, rfl⟩
theorem pla : Statement .pla := ⟨rfl, rfl, rfl⟩
theorem plp : Statement .plp := ⟨rfl, rfl, rfl⟩
theorem adcImm (imm8 : Byte) : Statement (.adcImm imm8) := ⟨rfl, rfl, rfl⟩
theorem adcZp (a8 : Byte) : Statement (.adcZp a8) := ⟨rfl, rfl, rfl⟩
theorem adcZpX (a8 : Byte) : Statement (.adcZpX a8) := ⟨rfl, rfl, rfl⟩
theorem adcAbs (lo8 hi8 : Byte) : Statement (.adcAbs lo8 hi8) := ⟨rfl, rfl, rfl⟩
theorem adcAbsX (lo8 hi8 : Byte) : Statement (.adcAbsX lo8 hi8) := ⟨rfl, rfl, rfl⟩
theorem adcAbsY (lo8 hi8 : Byte) : Statement (.adcAbsY lo8 hi8) := ⟨rfl, rfl, rfl⟩
theorem adcIndX (p8 : Byte) : Statement (.adcIndX p8) := ⟨rfl, rfl, rfl⟩
theorem adcIndY (p8 : Byte) : Statement (.adcIndY p8) := ⟨rfl, rfl, rfl⟩
theorem sbcImm (imm8 : Byte) : Statement (.sbcImm imm8) := ⟨rfl, rfl, rfl⟩
theorem sbcZp (a8 : Byte) : Statement (.sbcZp a8) := ⟨rfl, rfl, rfl⟩
theorem sbcZpX (a8 : Byte) : Statement (.sbcZpX a8) := ⟨rfl, rfl, rfl⟩
theorem sbcAbs (lo8 hi8 : Byte) : Statement (.sbcAbs lo8 hi8) := ⟨rfl, rfl, rfl⟩
theorem sbcAbsX (lo8 hi8 : Byte) : Statement (.sbcAbsX lo8 hi8) := ⟨rfl, rfl, rfl⟩
theorem sbcAbsY (lo8 hi8 : Byte) : Statement (.sbcAbsY lo8 hi8) := ⟨rfl, rfl, rfl⟩
theorem sbcIndX (p8 : Byte) : Statement (.sbcIndX p8) := ⟨rfl, rfl, rfl⟩
theorem sbcIndY (p8 : Byte) : Statement (.sbcIndY p8) := ⟨rfl, rfl, rfl⟩
theorem andImm (imm8 : Byte) : Statement (.andImm imm8) := ⟨rfl, rfl, rfl⟩
theorem andZp (a8 : Byte) : Statement (.andZp a8) := ⟨rfl, rfl, rfl⟩
theorem andZpX (a8 : Byte) : Statement (.andZpX a8) := ⟨rfl, rfl, rfl⟩
theorem andAbs (lo8 hi8 : Byte) : Statement (.andAbs lo8 hi8) := ⟨rfl, rfl, rfl⟩
theorem andAbsX (lo8 hi8 : Byte) : Statement (.andAbsX lo8 hi8) := ⟨rfl, rfl, rfl⟩
theorem andAbsY (lo8 hi8 : Byte) : Statement (.andAbsY lo8 hi8) := ⟨rfl, rfl, rfl⟩
theorem andIndX (p8 : Byte) : Statement (.andIndX p8) := ⟨rfl, rfl, rfl⟩
theorem andIndY (p8 : Byte) : Statement (.andIndY p8) := ⟨rfl, rfl, rfl⟩
theorem oraImm (imm8 : Byte) : Statement (.oraImm imm8) := ⟨rfl, rfl, rfl⟩
theorem oraZp (a8 : Byte) : Statement (.oraZp a8) := ⟨rfl, rfl, rfl⟩
theorem oraZpX (a8 : Byte) : Statement (.oraZpX a8) := ⟨rfl, rfl, rfl⟩
theorem oraAbs (lo8 hi8 : Byte) : Statement (.oraAbs lo8 hi8) := ⟨rfl, rfl, rfl⟩
theorem oraAbsX (lo8 hi8 : Byte) : Statement (.oraAbsX lo8 hi8) := ⟨rfl, rfl, rfl⟩
theorem oraAbsY (lo8 hi8 : Byte) : Statement (.oraAbsY lo8 hi8) := ⟨rfl, rfl, rfl⟩
theorem oraIndX (p8 : Byte) : Statement (.oraIndX p8) := ⟨rfl, rfl, rfl⟩
theorem oraIndY (p8 : Byte) : Statement (.oraIndY p8) := ⟨rfl, rfl, rfl⟩
theorem eorImm (imm8 : Byte) : Statement (.eorImm imm8) := ⟨rfl, rfl, rfl⟩
theorem eorZp (a8 : Byte) : Statement (.eorZp a8) := ⟨rfl, rfl, rfl⟩
theorem eorZpX (a8 : Byte) : Statement (.eorZpX a8) := ⟨rfl, rfl, rfl⟩
theorem eorAbs (lo8 hi8 : Byte) : Statement (.eorAbs lo8 hi8) := ⟨rfl, rfl, rfl⟩
theorem eorAbsX (lo8 hi8 : Byte) : Statement (.eorAbsX lo8 hi8) := ⟨rfl, rfl, rfl⟩
theorem eorAbsY (lo8 hi8 : Byte) : Statement (.eorAbsY lo8 hi8) := ⟨rfl, rfl, rfl⟩
theorem eorIndX (p8 : Byte) : Statement (.eorIndX p8) := ⟨rfl, rfl, rfl⟩
theorem eorIndY (p8 : Byte) : Statement (.eorIndY p8) := ⟨rfl, rfl, rfl⟩
theorem bitZp (a8 : Byte) : Statement (.bitZp a8) := ⟨rfl, rfl, rfl⟩
theorem bitAbs (lo8 hi8 : Byte) : Statement (.bitAbs lo8 hi8) := ⟨rfl, rfl, rfl⟩
theorem cmpImm (imm8 : Byte) : Statement (.cmpImm imm8) := ⟨rfl, rfl, rfl⟩
theorem cmpZp (a8 : Byte) : Statement (.cmpZp a8) := ⟨rfl, rfl, rfl⟩
theorem cmpZpX (a8 : Byte) : Statement (.cmpZpX a8) := ⟨rfl, rfl, rfl⟩
theorem cmpAbs (lo8 hi8 : Byte) : Statement (.cmpAbs lo8 hi8) := ⟨rfl, rfl, rfl⟩
theorem cmpAbsX (lo8 hi8 : Byte) : Statement (.cmpAbsX lo8 hi8) := ⟨rfl, rfl, rfl⟩
theorem cmpAbsY (lo8 hi8 : Byte) : Statement (.cmpAbsY lo8 hi8) := ⟨rfl, rfl, rfl⟩
theorem cmpIndX (p8 : Byte) : Statement (.cmpIndX p8) := ⟨rfl, rfl, rfl⟩
theorem cmpIndY (p8 : Byte) : Statement (.cmpIndY p8) := ⟨rfl, rfl, rfl⟩
theorem cpxImm (imm8 : Byte) : Statement (.cpxImm imm8) := ⟨rfl, rfl, rfl⟩
theorem cpxZp (a8 : Byte) : Statement (.cpxZp a8) := ⟨rfl, rfl, rfl⟩
theorem cpxAbs (lo8 hi8 : Byte) : Statement (.cpxAbs lo8 hi8) := ⟨rfl, rfl, rfl⟩
theorem cpyImm (imm8 : Byte) : Statement (.cpyImm imm8) := ⟨rfl, rfl, rfl⟩
theorem cpyZp (a8 : Byte) : Statement (.cpyZp a8) := ⟨rfl, rfl, rfl⟩
theorem cpyAbs (lo8 hi8 : Byte) : Statement (.cpyAbs lo8 hi8) := ⟨rfl, rfl, rfl⟩
theorem incZp (a8 : Byte) : Statement (.incZp a8) := ⟨rfl, rfl, rfl⟩
theorem incZpX (a8 : Byte) : Statement (.incZpX a8) := ⟨rfl, rfl, rfl⟩
theorem incAbs (lo8 hi8 : Byte) : Statement (.incAbs lo8 hi8) := ⟨rfl, rfl, rfl⟩
theorem incAbsX (lo8 hi8 : Byte) : Statement (.incAbsX lo8 hi8) := ⟨rfl, rfl, rfl⟩
theorem decZp (a8 : Byte) : Statement (.decZp a8) := ⟨rfl, rfl, rfl⟩
theorem decZpX (a8 : Byte) : Statement (.decZpX a8) := ⟨rfl, rfl, rfl⟩
theorem decAbs (lo8 hi8 : Byte) : Statement (.decAbs lo8 hi8) := ⟨rfl, rfl, rfl⟩
theorem decAbsX (lo8 hi8 : Byte) : Statement (.decAbsX lo8 hi8) := ⟨rfl, rfl, rfl⟩
theorem inx : Statement .inx := ⟨rfl, rfl, rfl⟩
theorem iny : Statement .iny := ⟨rfl, rfl, rfl⟩
theorem dex : Statement .dex := ⟨rfl, rfl, rfl⟩
theorem dey : Statement .dey := ⟨rfl, rfl, rfl⟩
theorem aslAcc : Statement .aslAcc := ⟨rfl, rfl, rfl⟩
theorem aslZp (a8 : Byte) : Statement (.aslZp a8) := ⟨rfl, rfl, rfl⟩
theorem aslZpX (a8 : Byte) : Statement (.aslZpX a8) := ⟨rfl, rfl, rfl⟩
theorem aslAbs (lo8 hi8 : Byte) : Statement (.aslAbs lo8 hi8) := ⟨rfl, rfl, rfl⟩
theorem aslAbsX (lo8 hi8 : Byte) : Statement (.aslAbsX lo8 hi8) := ⟨rfl, rfl, rfl⟩
theorem lsrAcc : Statement .lsrAcc := ⟨rfl, rfl, rfl⟩
theorem lsrZp (a8 : Byte) : Statement (.lsrZp a8) := ⟨rfl, rfl, rfl⟩
theorem lsrZpX (a8 : Byte) : Statement (.lsrZpX a8) := ⟨rfl, rfl, rfl⟩
theorem lsrAbs (lo8 hi8 : Byte) : Statement (.lsrAbs lo8 hi8) := ⟨rfl, rfl, rfl⟩
theorem lsrAbsX (lo8 hi8 : Byte) : Statement (.lsrAbsX lo8 hi8) := ⟨rfl, rfl, rfl⟩
theorem rolAcc : Statement .rolAcc := ⟨rfl, rfl, rfl⟩
theorem rolZp (a8 : Byte) : Statement (.rolZp a8) := ⟨rfl, rfl, rfl⟩
theorem rolZpX (a8 : Byte) : Statement (.rolZpX a8) := ⟨rfl, rfl, rfl⟩
theorem rolAbs (lo8 hi8 : Byte) : Statement (.rolAbs lo8 hi8) := ⟨rfl, rfl, rfl⟩
theorem rolAbsX (lo8 hi8 : Byte) : Statement (.rolAbsX lo8 hi8) := ⟨rfl, rfl, rfl⟩
theorem rorAcc : Statement .rorAcc := ⟨rfl, rfl, rfl⟩
theorem rorZp (a8 : Byte) : Statement (.rorZp a8) := ⟨rfl, rfl, rfl⟩
theorem rorZpX (a8 : Byte) : Statement (.rorZpX a8) := ⟨rfl, rfl, rfl⟩
theorem rorAbs (lo8 hi8 : Byte) : Statement (.rorAbs lo8 hi8) := ⟨rfl, rfl, rfl⟩
theorem rorAbsX (lo8 hi8 : Byte) : Statement (.rorAbsX lo8 hi8) := ⟨rfl, rfl, rfl⟩
theorem jmpAbs (lo8 hi8 : Byte) : Statement (.jmpAbs lo8 hi8) := ⟨rfl, rfl, rfl⟩
theorem jmpInd (lo8 hi8 : Byte) : Statement (.jmpInd lo8 hi8) := ⟨rfl, rfl, rfl⟩
theorem jsr (lo8 hi8 : Byte) : Statement (.jsr lo8 hi8) := ⟨rfl, rfl, rfl⟩
theorem rts : Statement .rts := ⟨rfl, rfl, rfl⟩
theorem bcc (off8 : Byte) : Statement (.bcc off8) := ⟨rfl, rfl, rfl⟩
theorem bcs (off8 : Byte) : Statement (.bcs off8) := ⟨rfl, rfl, rfl⟩
theorem beq (off8 : Byte) : Statement (.beq off8) := ⟨rfl, rfl, rfl⟩
theorem bne (off8 : Byte) : Statement (.bne off8) := ⟨rfl, rfl, rfl⟩
theorem bmi (off8 : Byte) : Statement (.bmi off8) := ⟨rfl, rfl, rfl⟩
theorem bpl (off8 : Byte) : Statement (.bpl off8) := ⟨rfl, rfl, rfl⟩
theorem bvc (off8 : Byte) : Statement (.bvc off8) := ⟨rfl, rfl, rfl⟩
theorem bvs (off8 : Byte) : Statement (.bvs off8) := ⟨rfl, rfl, rfl⟩
theorem brk (padding : Byte) : Statement (.brk padding) := ⟨rfl, rfl, rfl⟩
theorem rti : Statement .rti := ⟨rfl, rfl, rfl⟩
theorem nop : Statement .nop := ⟨rfl, rfl, rfl⟩
theorem clc : Statement .clc := ⟨rfl, rfl, rfl⟩
theorem sec : Statement .sec := ⟨rfl, rfl, rfl⟩
theorem cli : Statement .cli := ⟨rfl, rfl, rfl⟩
theorem sei : Statement .sei := ⟨rfl, rfl, rfl⟩
theorem cld : Statement .cld := ⟨rfl, rfl, rfl⟩
theorem sed : Statement .sed := ⟨rfl, rfl, rfl⟩
theorem clv : Statement .clv := ⟨rfl, rfl, rfl⟩

end Sys2Proof.Laws.EncodingLength
end

