-- ==== Sys2Proof/Tests/Slice0.lean ====
section
/-! SUPPORT. Tests. Every expected value is from spec/95_test_vectors.md (its vector's name is in the comment) or from the
**Example** of the rule named; then, for every statement that has hypotheses, a witness that meets them. -/

namespace Sys2Proof.Tests

open Sys2Proof Sys2Proof.Machine

/-- The outcome is a next state with this property. -/
def next (o : Host.Outcome State Fault Refusal) (p : State → Bool) : Bool :=
  match o with
  | .next t => p t
  | .fault _ => false
  | .refused _ => false

/-- The outcome is a fault with this property. -/
def faults (o : Host.Outcome State Fault Refusal) (p : Fault → Bool) : Bool :=
  match o with
  | .fault f => p f
  | .next _ => false
  | .refused _ => false

/-- The outcome is this refusal. -/
def refuses (o : Host.Outcome State Fault Refusal) (r : Refusal) : Bool :=
  match o with
  | .refused q => q == r
  | .next _ => false
  | .fault _ => false

/-- The state after reset with these bytes at `pc`. -/
def code (pc : Word) (bs : List Byte) (s : State := State.reset) : State :=
  placeBytes pc bs { s with cpu := { s.cpu with pc := pc } }

/-- The state after reset with other values of A, X, Y, S and P. -/
def cpu (a x y : Byte := 0x00) (sp : Byte := 0xFD) (p : Byte := 0x24) (s : State := State.reset) : State :=
  { s with cpu := { a := a, x := x, y := y, s := sp, pc := s.cpu.pc, p := pulledFlags p } }

/-- RAM with these cells, the others 0. -/
def ram (m : Memory 8) (s : State := State.reset) : State := { s with ram := m }

/-- The PPU changed. -/
def ppu (f : Ppu → Ppu) (s : State := State.reset) : State := { s with ppu := f s.ppu }

/-- A cartridge of the given lengths, all bytes 0. -/
def cart (prg chr : Nat) (m : MirroringKind) : CartImage :=
  { prg := List.replicate prg 0, chr := List.replicate chr 0, mirroring := m }

/-- A power-on draw of zeros. -/
def zeros : PowerOn :=
  { ram := [], vram := [], pal := [], oam := [], readBuffer := 0, ioLatch := 0, busLatch := 0 }

/-! ### Well-formedness, 00_scope R22: each check refuses a cartridge that fails it alone -/

theorem cart_length (prg chr : Nat) (m : MirroringKind) :
    (cart prg chr m).prg.length = prg ∧ (cart prg chr m).chr.length = chr :=
  ⟨List.length_replicate, List.length_replicate⟩

theorem test_wf_refuses_prg_length : ¬ (cart 16383 8192 .vertical).wf := fun h => by
  have := h.1
  unfold CartImage.prgOk at this
  rw [(cart_length _ _ _).1] at this
  revert this
  decide

theorem test_wf_refuses_chr_length : ¬ (cart 16384 4096 .vertical).wf := fun h => by
  have := h.2.1
  unfold CartImage.chrOk at this
  rw [(cart_length _ _ _).2] at this
  revert this
  decide

theorem test_wf_refuses_four_screen : ¬ (cart 16384 8192 .fourScreen).wf := fun h => by
  rcases h.2.2 with h | h <;> cases h

theorem test_wf_refuses_single_screen : ¬ (cart 32768 8192 .singleScreen).wf := fun h => by
  rcases h.2.2 with h | h <;> cases h

theorem test_wf_accepts_nrom128 : (cart 16384 8192 .vertical).wf :=
  ⟨Or.inl (cart_length _ _ _).1, (cart_length _ _ _).2, Or.inr rfl⟩

theorem test_wf_accepts_nrom256 : (cart 32768 8192 .horizontal).wf :=
  ⟨Or.inr (cart_length _ _ _).1, (cart_length _ _ _).2, Or.inl rfl⟩

/-- W9: a refused cartridge builds no block. -/
theorem test_construct_refuses_by_name :
    refuses (construct (cart 3 8192 .horizontal) .latch zeros) (.prgLength 3) = true := by decide

/-- 30_encoding R220, R221: an illegal opcode byte is refused by name, and so are too few bytes; an operand byte never. -/
theorem test_decode_refuses_by_name :
    decode [0xEB, 0x00, 0x00] = .refused (.illegalOpcode 0xEB) ∧ decode [0x4C, 0x00] = .refused .truncated ∧
      decode [] = .refused .truncated := by decide

/-! ### Decoding: words written bit by bit, opcode byte `aaabbbcc`, from the **Encoding** lines -/

/-- Loads, stores, transfers: R300 LDA (zp),Y 0xB1; R304 STX zp,Y 0x96; R311 TXS 0x9A. -/
theorem test_decode_load_store :
    decode [0b10110001, 0b11111111] = .instr (.ldaIndY 0xFF) [] ∧
    decode [0b10010110, 0b00010000] = .instr (.stxZpY 0x10) [] ∧ decode [0b10011010] = .instr .txs [] := by decide

/-- Stack: R320 PHA 0x48, R323 PLP 0x28. -/
theorem test_decode_stack :
    decode [0b01001000] = .instr .pha [] ∧ decode [0b00101000] = .instr .plp [] := by decide

/-- Arithmetic and logic: R330 ADC abs,Y 0x79; R335 BIT abs 0x2C; R338 CPY imm 0xC0. The low byte comes first (R201). -/
theorem test_decode_arith_logic :
    decode [0b01111001, 0b00110100, 0b00010010] = .instr (.adcAbsY 0x34 0x12) [] ∧
    decode [0b00101100, 0b00000010, 0b00100000] = .instr (.bitAbs 0x02 0x20) [] ∧
    decode [0b11000000, 0b10000000] = .instr (.cpyImm 0x80) [] := by decide

/-- Increment, decrement, shift: R351 DEC abs,X 0xDE; R356 ASL zp 0x06; R359 ROR acc 0x6A. -/
theorem test_decode_incdec_shift :
    decode [0b11011110, 0b11111111, 0b00000010] = .instr (.decAbsX 0xFF 0x02) [] ∧
    decode [0b00000110, 0b00010000] = .instr (.aslZp 0x10) [] ∧ decode [0b01101010] = .instr .rorAcc [] := by decide

/-- Control: R370 JMP ind 0x6C; R372 JSR 0x20; R381 BVS 0x70; R382 BRK 0x00 and its padding byte; R383 RTI 0x40. -/
theorem test_decode_control :
    decode [0b01101100, 0b11111111, 0b00000010] = .instr (.jmpInd 0xFF 0x02) [] ∧
    decode [0b00100000, 0b00000000, 0b10010000] = .instr (.jsr 0x00 0x90) [] ∧
    decode [0b01110000, 0b10000000] = .instr (.bvs 0x80) [] ∧
    decode [0b00000000, 0b11101010] = .instr (.brk 0xEA) [] ∧ decode [0b01000000] = .instr .rti [] := by decide

/-- Flags: R390 CLC 0x18, R396 CLV 0xB8. -/
theorem test_decode_flags :
    decode [0b00011000] = .instr .clc [] ∧ decode [0b10111000] = .instr .clv [] := by decide

/-- A table word has its bytes as the hardware stores them, the first byte in bits 7..0, and zeros above its bits. -/
theorem test_decode_table_word :
    decodeTableWord 24 0x1234AD = some (.ldaAbs 0x34 0x12) ∧ decodeTableWord 8 0x4C = some (.jmpAbs 0x00 0x00) ∧
      decodeTableWord 8 0x02 = none := by decide

/-- An instruction placed by `withFetchWord` is the one the next step runs. -/
theorem test_with_fetch_word :
    next (step (State.reset.withFetchWord 16 0x05A9)) (fun t => t.cpu.a == 0x05) = true := by decide

/-- 70_reset_and_hazards R735: the cycles of all 151 opcodes with operand bytes of zeros at 0x0000, as the first instruction
after reset (BCC, BNE, BPL and BVC are taken there, no page is crossed); a byte without an entry faults. -/
theorem test_cycles_of_every_opcode :
    (List.range 256).map (fun op => match step (State.reset.withFetchWord 8 op) with
      | .next t => t.cycles - 7
      | .fault _ => 0
      | .refused _ => 1) =
    [7, 6, 0, 0, 0, 3, 5, 0, 3, 2, 2, 0, 0, 4, 6, 0] ++
    [3, 5, 0, 0, 0, 4, 6, 0, 2, 4, 0, 0, 0, 4, 7, 0] ++
    [6, 6, 0, 0, 3, 3, 5, 0, 4, 2, 2, 0, 4, 4, 6, 0] ++
    [2, 5, 0, 0, 0, 4, 6, 0, 2, 4, 0, 0, 0, 4, 7, 0] ++
    [6, 6, 0, 0, 0, 3, 5, 0, 3, 2, 2, 0, 3, 4, 6, 0] ++
    [3, 5, 0, 0, 0, 4, 6, 0, 2, 4, 0, 0, 0, 4, 7, 0] ++
    [6, 6, 0, 0, 0, 3, 5, 0, 4, 2, 2, 0, 5, 4, 6, 0] ++
    [2, 5, 0, 0, 0, 4, 6, 0, 2, 4, 0, 0, 0, 4, 7, 0] ++
    [0, 6, 0, 0, 3, 3, 3, 0, 2, 0, 2, 0, 4, 4, 4, 0] ++
    [3, 6, 0, 0, 4, 4, 4, 0, 2, 5, 2, 0, 0, 5, 0, 0] ++
    [2, 6, 2, 0, 3, 3, 3, 0, 2, 2, 2, 0, 4, 4, 4, 0] ++
    [2, 5, 0, 0, 4, 4, 4, 0, 2, 4, 2, 0, 4, 4, 4, 0] ++
    [2, 6, 0, 0, 3, 3, 5, 0, 2, 2, 2, 0, 4, 4, 6, 0] ++
    [3, 5, 0, 0, 0, 4, 6, 0, 2, 4, 0, 0, 0, 4, 7, 0] ++
    [2, 6, 0, 0, 3, 3, 5, 0, 2, 2, 2, 0, 4, 4, 6, 0] ++
    [2, 5, 0, 0, 0, 4, 6, 0, 2, 4, 0, 0, 0, 4, 7, 0] := by decide +kernel

/-! ### One step, from the vectors -/

/-- L1. -/
theorem test_lda_zero :
    next (step (code 0x8000#16 [0xA9, 0x00]))
      (fun t => t.cpu.a == 0x00 && pImage t.cpu.p false == 0x26 && t.cycles == 9) = true := by decide

/-- L5. -/
theorem test_lda_crossing :
    next (step (code 0x8000#16 [0xBD, 0x01, 0x02] (cpu (x := 0xFF) (s := ram [(0x300, 0x22)]))))
      (fun t => t.cpu.a == 0x22 && t.cycles == 12) = true := by decide

/-- L3. -/
theorem test_ldx_wraps :
    next (step (code 0x8000#16 [0xB6, 0xFF] (cpu (y := 2) (s := ram [(0x01, 0x77)]))))
      (fun t => t.cpu.x == 0x77 && pImage t.cpu.p false == 0x24 && t.cycles == 11) = true := by decide

/-- R301. -/
theorem test_ldx_negative :
    next (step (code 0x8000#16 [0xA2, 0x80]))
      (fun t => t.cpu.x == 0x80 && pImage t.cpu.p false == 0xA4 && t.cycles == 9) = true := by decide

/-- R302. -/
theorem test_ldy_zero :
    next (step (code 0x8000#16 [0xA0, 0x00] (cpu (y := 1))))
      (fun t => t.cpu.y == 0x00 && pImage t.cpu.p false == 0x26 && t.cycles == 9) = true := by decide

/-- L6. -/
theorem test_sta_indexed :
    next (step (code 0x8000#16 [0x9D, 0x00, 0x02] (cpu (a := 0x33) (x := 1))))
      (fun t => t.ram == [(0x201, 0x33)] && t.cycles == 12) = true := by decide

/-- B4, its second step. -/
theorem test_sta_rom :
    next (step (code 0x8000#16 [0x8D, 0x00, 0x90] (cpu (a := 0x77))))
      (fun t => t.board.prg == [(0x00, 0x8D), (0x02, 0x90)] && t.busLatch == 0x77 && t.cycles == 11) = true := by decide

/-- R304. -/
theorem test_stx_abs :
    next (step (code 0x8000#16 [0x8E, 0x00, 0x02] (cpu (x := 0x12))))
      (fun t => t.ram == [(0x200, 0x12)] && t.cycles == 11) = true := by decide

/-- R305. -/
theorem test_sty_mirror :
    next (step (code 0x8000#16 [0x8C, 0x00, 0x08] (cpu (y := 7))))
      (fun t => t.ram == [(0x000, 7)] && t.cycles == 11) = true := by decide

/-- R306. -/
theorem test_tax :
    next (step (code 0x8000#16 [0xAA] (cpu (a := 0xFF))))
      (fun t => t.cpu.x == 0xFF && pImage t.cpu.p false == 0xA4 && t.cycles == 9) = true := by decide

/-- R307. -/
theorem test_tay :
    next (step (code 0x8000#16 [0xA8] (cpu (y := 5))))
      (fun t => t.cpu.y == 0x00 && pImage t.cpu.p false == 0x26 && t.cycles == 9) = true := by decide

/-- R308. -/
theorem test_txa :
    next (step (code 0x8000#16 [0x8A] (cpu (x := 0x7F))))
      (fun t => t.cpu.a == 0x7F && pImage t.cpu.p false == 0x24 && t.cycles == 9) = true := by decide

/-- R309. -/
theorem test_tya :
    next (step (code 0x8000#16 [0x98] (cpu (y := 0x80))))
      (fun t => t.cpu.a == 0x80 && pImage t.cpu.p false == 0xA4 && t.cycles == 9) = true := by decide

/-- L7. -/
theorem test_tsx :
    next (step (code 0x8000#16 [0xBA] (cpu (sp := 0x80))))
      (fun t => t.cpu.x == 0x80 && pImage t.cpu.p false == 0xA4 && t.cycles == 9) = true := by decide

/-- L8. -/
theorem test_txs :
    next (step (code 0x8000#16 [0x9A]))
      (fun t => t.cpu.s == 0x00 && pImage t.cpu.p false == 0x24 && t.cycles == 9) = true := by decide

/-- K1. -/
theorem test_php :
    next (step (code 0x8000#16 [0x08]))
      (fun t => t.ram == [(0x1FD, 0x34)] && t.cpu.s == 0xFC && t.cycles == 10) = true := by decide

/-- K2. -/
theorem test_plp :
    next (step (code 0x8000#16 [0x28] (ram [(0x1FE, 0xFF)])))
      (fun t => t.cpu.s == 0xFE && pImage t.cpu.p false == 0xEF && t.cycles == 11) = true := by decide

/-- K5. -/
theorem test_plp_zero :
    next (step (code 0x8000#16 [0x28] (ram [])))
      (fun t => pImage t.cpu.p false == 0x20 && t.cycles == 11) = true := by decide

/-- K3. -/
theorem test_pha_wraps :
    next (step (code 0x8000#16 [0x48] (cpu (a := 0x42) (sp := 0x00))))
      (fun t => t.ram == [(0x100, 0x42)] && t.cpu.s == 0xFF && t.cycles == 10) = true := by decide

/-- K4. -/
theorem test_pla :
    next (step (code 0x8000#16 [0x68] (cpu (sp := 0xFC) (s := ram [(0x1FD, 0x80)]))))
      (fun t => t.cpu.a == 0x80 && t.cpu.s == 0xFD && pImage t.cpu.p false == 0xA4 && t.cycles == 11) = true := by decide

/-- A2. -/
theorem test_adc_signed_overflow :
    next (step (code 0x8000#16 [0x69, 0x01] (cpu (a := 0x7F) (p := 0x24))))
      (fun t => t.cpu.a == 0x80 && pImage t.cpu.p false == 0xE4 && t.cycles == 9) = true := by decide

/-- A3. -/
theorem test_adc_carry_and_overflow :
    next (step (code 0x8000#16 [0x69, 0x80] (cpu (a := 0x80) (p := 0x24))))
      (fun t => t.cpu.a == 0x00 && pImage t.cpu.p false == 0x67 && t.cycles == 9) = true := by decide

/-- A7. -/
theorem test_sbc_overflow :
    next (step (code 0x8000#16 [0xE9, 0xB0] (cpu (a := 0x50) (p := 0x25))))
      (fun t => t.cpu.a == 0xA0 && pImage t.cpu.p false == 0xE4 && t.cycles == 9) = true := by decide

/-- A9. -/
theorem test_sbc_borrow :
    next (step (code 0x8000#16 [0xE9, 0x00] (cpu (a := 0x00) (p := 0x24))))
      (fun t => t.cpu.a == 0xFF && pImage t.cpu.p false == 0xA4 && t.cycles == 9) = true := by decide

/-- A11. -/
theorem test_cmp_equal :
    next (step (code 0x8000#16 [0xC9, 0x40] (cpu (a := 0x40) (p := 0x24))))
      (fun t => t.cpu.a == 0x40 && pImage t.cpu.p false == 0x27 && t.cycles == 9) = true := by decide

/-- A14. -/
theorem test_cmp_below :
    next (step (code 0x8000#16 [0xC9, 0xFF] (cpu (a := 0x00) (p := 0x24))))
      (fun t => t.cpu.a == 0x00 && pImage t.cpu.p false == 0x24 && t.cycles == 9) = true := by decide

/-- A16. -/
theorem test_and :
    next (step (code 0x8000#16 [0x29, 0xF0] (cpu (a := 0x0F) (p := 0x24))))
      (fun t => t.cpu.a == 0x00 && pImage t.cpu.p false == 0x26 && t.cycles == 9) = true := by decide

/-- A16. -/
theorem test_ora :
    next (step (code 0x8000#16 [0x09, 0xF0] (cpu (a := 0x0F) (p := 0x24))))
      (fun t => t.cpu.a == 0xFF && pImage t.cpu.p false == 0xA4 && t.cycles == 9) = true := by decide

/-- A16. -/
theorem test_eor :
    next (step (code 0x8000#16 [0x49, 0xF0] (cpu (a := 0x0F) (p := 0x24))))
      (fun t => t.cpu.a == 0xFF && pImage t.cpu.p false == 0xA4 && t.cycles == 9) = true := by decide

/-- A15. -/
theorem test_bit :
    next (step (code 0x8000#16 [0x24, 0x10] (cpu (a := 0x01) (s := ram [(0x10, 0xC0)]))))
      (fun t => t.cpu.a == 0x01 && pImage t.cpu.p false == 0xE6 && t.cycles == 10) = true := by decide

/-- R337. -/
theorem test_cpx :
    next (step (code 0x8000#16 [0xE0, 0x05] (cpu (x := 5))))
      (fun t => t.cpu.x == 5 && pImage t.cpu.p false == 0x27 && t.cycles == 9) = true := by decide

/-- R338. -/
theorem test_cpy :
    next (step (code 0x8000#16 [0xC0, 0x01]))
      (fun t => t.cpu.y == 0 && pImage t.cpu.p false == 0xA4 && t.cycles == 9) = true := by decide

/-- I1. -/
theorem test_inc :
    next (step (code 0x8000#16 [0xE6, 0x10] (ram [(0x10, 0xFF)])))
      (fun t => t.ram == [] && pImage t.cpu.p false == 0x26 && t.cycles == 12) = true := by decide

/-- I3. -/
theorem test_inc_indexed :
    next (step (code 0x8000#16 [0xFE, 0xFF, 0x02] (cpu (x := 1) (s := ram [(0x300, 0x7F)]))))
      (fun t => t.ram == [(0x300, 0x80)] && pImage t.cpu.p false == 0xA4 && t.cycles == 14) = true := by decide

/-- I2. -/
theorem test_dec :
    next (step (code 0x8000#16 [0xC6, 0x10]))
      (fun t => t.ram == [(0x10, 0xFF)] && pImage t.cpu.p false == 0xA4 && t.cycles == 12) = true := by decide

/-- R352. -/
theorem test_inx :
    next (step (code 0x8000#16 [0xE8] (cpu (x := 0x7F))))
      (fun t => t.cpu.x == 0x80 && pImage t.cpu.p false == 0xA4 && t.cycles == 9) = true := by decide

/-- I5. -/
theorem test_iny :
    next (step (code 0x8000#16 [0xC8] (cpu (y := 0xFF))))
      (fun t => t.cpu.y == 0x00 && pImage t.cpu.p false == 0x26 && t.cycles == 9) = true := by decide

/-- I4. -/
theorem test_dex :
    next (step (code 0x8000#16 [0xCA]))
      (fun t => t.cpu.x == 0xFF && pImage t.cpu.p false == 0xA4 && t.cycles == 9) = true := by decide

/-- R355. -/
theorem test_dey :
    next (step (code 0x8000#16 [0x88] (cpu (y := 0x81))))
      (fun t => t.cpu.y == 0x80 && pImage t.cpu.p false == 0xA4 && t.cycles == 9) = true := by decide

/-- I6. -/
theorem test_asl :
    next (step (code 0x8000#16 [0x0A] (cpu (a := 0x80) (p := 0x24))))
      (fun t => t.cpu.a == 0x00 && pImage t.cpu.p false == 0x27 && t.cycles == 9) = true := by decide

/-- I7. -/
theorem test_lsr :
    next (step (code 0x8000#16 [0x4A] (cpu (a := 0x01) (p := 0x24))))
      (fun t => t.cpu.a == 0x00 && pImage t.cpu.p false == 0x27 && t.cycles == 9) = true := by decide

/-- I8. -/
theorem test_rol_carry_out :
    next (step (code 0x8000#16 [0x2A] (cpu (a := 0x80) (p := 0x24))))
      (fun t => t.cpu.a == 0x00 && pImage t.cpu.p false == 0x27 && t.cycles == 9) = true := by decide

/-- I9. -/
theorem test_rol_carry_in :
    next (step (code 0x8000#16 [0x2A] (cpu (a := 0x40) (p := 0x25))))
      (fun t => t.cpu.a == 0x81 && pImage t.cpu.p false == 0xA4 && t.cycles == 9) = true := by decide

/-- I10. -/
theorem test_ror :
    next (step (code 0x8000#16 [0x6A] (cpu (a := 0x01) (p := 0x25))))
      (fun t => t.cpu.a == 0x80 && pImage t.cpu.p false == 0xA5 && t.cycles == 9) = true := by decide

/-- J1. -/
theorem test_bne_not_taken :
    next (step (code 0x8000#16 [0xD0, 0x05] (cpu (p := 0x26))))
      (fun t => t.cpu.pc == 0x8002 && t.cycles == 9) = true := by decide

/-- J3. -/
theorem test_bne_crossing :
    next (step (code 0x80FD#16 [0xD0, 0x05]))
      (fun t => t.cpu.pc == 0x8104 && t.cycles == 11) = true := by decide

/-- J4. -/
theorem test_beq_backwards :
    next (step (code 0x8100#16 [0xF0, 0xF0] (cpu (p := 0x26))))
      (fun t => t.cpu.pc == 0x80F2 && t.cycles == 11) = true := by decide

/-- J5. -/
theorem test_bcc :
    next (step (code 0x8100#16 [0x90, 0x80]))
      (fun t => t.cpu.pc == 0x8082 && t.cycles == 11) = true := by decide

/-- J6. -/
theorem test_bpl :
    next (step (code 0x8000#16 [0x10, 0xFE]))
      (fun t => t.cpu.pc == 0x8000 && t.cycles == 10) = true := by decide

/-- R375. -/
theorem test_bcs :
    next (step (code 0x8000#16 [0xB0, 0x10]))
      (fun t => t.cpu.pc == 0x8002 && t.cycles == 9) = true := by decide

/-- R378. -/
theorem test_bmi :
    next (step (code 0x8000#16 [0x30, 0xFE] (cpu (p := 0xA4))))
      (fun t => t.cpu.pc == 0x8000 && t.cycles == 10) = true := by decide

/-- R380. -/
theorem test_bvc :
    next (step (code 0x8000#16 [0x50, 0x00]))
      (fun t => t.cpu.pc == 0x8002 && t.cycles == 10) = true := by decide

/-- R381. -/
theorem test_bvs :
    next (step (code 0x8000#16 [0x70, 0x05] (cpu (p := 0x64))))
      (fun t => t.cpu.pc == 0x8007 && t.cycles == 10) = true := by decide

/-- J7. -/
theorem test_jmp_indirect_page_wrap :
    next (step (code 0x8000#16 [0x6C, 0xFF, 0x02] (ram [(0x200, 0x12), (0x2FF, 0x34), (0x300, 0x56)])))
      (fun t => t.cpu.pc == 0x1234 && t.cycles == 12) = true := by decide

/-- J8. -/
theorem test_jmp :
    next (step (code 0x8004#16 [0x4C, 0x00, 0x80]))
      (fun t => t.cpu.pc == 0x8000 && t.cycles == 10) = true := by decide

/-- J9. -/
theorem test_jsr :
    next (step (code 0x8000#16 [0x20, 0x00, 0x90]))
      (fun t => t.cpu.pc == 0x9000 && t.cpu.s == 0xFB && t.ram == [(0x1FC, 0x02), (0x1FD, 0x80)] && t.cycles == 13) = true := by decide

/-- J10. -/
theorem test_rts :
    next (step (code 0x9000#16 [0x60] (cpu (sp := 0xFB) (s := ram [(0x1FC, 0x02), (0x1FD, 0x80)]))))
      (fun t => t.cpu.pc == 0x8003 && t.cpu.s == 0xFD && t.cycles == 13) = true := by decide

/-- J11 and J13. -/
theorem test_brk :
    next (step (code 0x8000#16 [0x00, 0xEA] (placeBytes 0xFFFE#16 [0x00, 0x90] State.reset)))
      (fun t => t.cpu.pc == 0x9000 && t.cpu.s == 0xFA && t.cpu.p.i && t.ram == [(0x1FB, 0x34), (0x1FC, 0x02), (0x1FD, 0x80)] && t.cycles == 14) = true := by decide

/-- J12. -/
theorem test_rti :
    next (step (code 0x9000#16 [0x40] (cpu (sp := 0xFA) (s := ram [(0x1FB, 0x34), (0x1FC, 0x02), (0x1FD, 0x80)]))))
      (fun t => t.cpu.pc == 0x8002 && t.cpu.s == 0xFD && pImage t.cpu.p false == 0x24 && t.cycles == 13) = true := by decide

/-- J14. -/
theorem test_nop :
    next (step (code 0x8000#16 [0xEA]))
      (fun t => t.cpu == { State.reset.cpu with pc := 0x8001 } && t.cycles == 9) = true := by decide

/-- 2.6 Flags, start P = 0x64. -/
theorem test_clc :
    next (step (code 0x8000#16 [0x18] (cpu (p := 0x64))))
      (fun t => pImage t.cpu.p false == 0x64 && t.cycles == 9) = true := by decide

/-- 2.6 Flags, start P = 0x64. -/
theorem test_sec :
    next (step (code 0x8000#16 [0x38] (cpu (p := 0x64))))
      (fun t => pImage t.cpu.p false == 0x65 && t.cycles == 9) = true := by decide

/-- 2.6 Flags, start P = 0x64. -/
theorem test_cli :
    next (step (code 0x8000#16 [0x58] (cpu (p := 0x64))))
      (fun t => pImage t.cpu.p false == 0x60 && t.cycles == 9) = true := by decide

/-- 2.6 Flags, start P = 0x64. -/
theorem test_sei :
    next (step (code 0x8000#16 [0x78] (cpu (p := 0x64))))
      (fun t => pImage t.cpu.p false == 0x64 && t.cycles == 9) = true := by decide

/-- 2.6 Flags, start P = 0x64. -/
theorem test_cld :
    next (step (code 0x8000#16 [0xD8] (cpu (p := 0x64))))
      (fun t => pImage t.cpu.p false == 0x64 && t.cycles == 9) = true := by decide

/-- 2.6 Flags, start P = 0x64. -/
theorem test_sed :
    next (step (code 0x8000#16 [0xF8] (cpu (p := 0x64))))
      (fun t => pImage t.cpu.p false == 0x6C && t.cycles == 9) = true := by decide

/-- 2.6 Flags, start P = 0x64. -/
theorem test_clv :
    next (step (code 0x8000#16 [0xB8] (cpu (p := 0x64))))
      (fun t => pImage t.cpu.p false == 0x24 && t.cycles == 9) = true := by decide

/-- M1. -/
theorem test_indexed_indirect_wraps :
    next (step (code 0x8000#16 [0xA1, 0xFE] (cpu (x := 1) (s := ram [(0x00, 0x02), (0xFF, 0x34), (0x234, 0x99)]))))
      (fun t => t.cpu.a == 0x99 && pImage t.cpu.p false == 0xA4 && t.cycles == 13) = true := by decide

/-- M2. -/
theorem test_indirect_indexed_crossing :
    next (step (code 0x8000#16 [0xB1, 0xFF] (cpu (y := 0x10) (s := ram [(0x00, 0x02), (0xFF, 0xF8), (0x308, 0x44)]))))
      (fun t => t.cpu.a == 0x44 && t.cycles == 13) = true := by decide

/-- M3. -/
theorem test_dummy_read_moves_ppudata :
    next (step (code 0x8000#16 [0xBD, 0xFF, 0x20] (cpu (x := 8) (s := ppu (fun p => { p with v := 0x2000, vram := [(0, 0x11), (1, 0x22)], readBuffer := 0x40 })))))
      (fun t => t.cpu.a == 0x11 && t.ppu.readBuffer == 0x22 && t.ppu.v == 0x2002 && t.cycles == 12) = true := by decide

/-- M4. -/
theorem test_rmw_writes_ppudata_twice :
    next (step (code 0x8000#16 [0xEE, 0x07, 0x20] (ppu (fun p => { p with v := 0x2000, vram := [(0, 0x11)], readBuffer := 0x40 }))))
      (fun t => t.ppu.vram == [(0, 0x11), (1, 0x40), (2, 0x41)] && t.ppu.readBuffer == 0x11 && t.ppu.v == 0x2003 && t.cycles == 13) = true := by decide

/-- M5. -/
theorem test_illegal_opcode :
    faults (step (code 0x8000#16 [0x02])) (fun f => match f with
      | .illegalOpcode op a t => op == 0x02 && a == 0x8000 && t.cycles == 8 && t.cpu.pc == 0x8001 && t.busLatch == 0x02
      | .unmodelledRenderingAccess _ _ _ _ _ => false
      | .ppuAddressOutOfRange _ _ => false) = true := by decide

/-- R6, its third step: rendering on at scanline 0, dot 39 (13 cycles), STA $2007. -/
theorem test_rendering_access :
    faults (step (code 0x8000#16 [0x8D, 0x07, 0x20]
        (cpu (a := 0x08) (s := ppu (fun p => { p with mask := 0x08, ioLatch := 0x08, dot := 39 })))))
      (fun f => match f with
      | .unmodelledRenderingAccess r d line dot t =>
        r == .ppudata && d == .write && line == 0 && dot == 48 && t.cycles == 10 && t.busLatch == 0x20 &&
          t.ppu.ioLatch == 0x08
      | .illegalOpcode _ _ _ => false
      | .ppuAddressOutOfRange _ _ => false) = true := by decide

/-- M6. -/
theorem test_operand_fetch_wraps_pc :
    next (step (code 0xFFFF#16 [0xA9, 0x05]))
      (fun t => t.cpu.a == 0x05 && t.cpu.pc == 0x0001 && t.cycles == 9) = true := by decide

/-- B1. -/
theorem test_open_bus :
    next (step (code 0x8000#16 [0xAD, 0x00, 0x50]))
      (fun t => t.cpu.a == 0x50 && t.cycles == 11) = true := by decide

/-- B2. -/
theorem test_pad2 :
    next (step (code 0x8000#16 [0xAD, 0x17, 0x40]))
      (fun t => t.cpu.a == 0x40 && t.cycles == 11) = true := by decide

/-- R5. -/
theorem test_status_read :
    next (step (code 0x8000#16 [0xAD, 0x02, 0x20] (ppu (fun p => { p with vbl := true, w := true }))))
      (fun t => t.cpu.a.getLsbD 7 && !t.ppu.vbl && !t.ppu.w && t.cycles == 11) = true := by decide

/-- B5. -/
theorem test_ppu_latch :
    next (step (code 0x8000#16 [0xAD, 0x00, 0x20] (ppu (fun p => { p with ioLatch := 0x5B }))))
      (fun t => t.cpu.a == 0x5B && t.cycles == 11) = true := by decide

/-- R2 and R3, the store. -/
theorem test_palette_alias :
    next (step (code 0x8000#16 [0x8D, 0x07, 0x20] (cpu (a := 0xE5) (s := ppu (fun p => { p with v := 0x3F10 })))))
      (fun t => t.ppu.pal == [(0, 0x25)] && t.ppu.v == 0x3F11 && t.cycles == 11) = true := by decide

/-- R7. -/
theorem test_oam_attribute :
    next (step (code 0x8000#16 [0x8D, 0x04, 0x20] (cpu (a := 0xFF) (s := ppu (fun p => { p with oamAddr := 2 })))))
      (fun t => t.ppu.oam == [(2, 0xE3)] && t.ppu.oamAddr == 3 && t.cycles == 11) = true := by decide

/-- T4, its second step. -/
theorem test_nmi_on_enable :
    next (step (code 0x8000#16 [0x8D, 0x00, 0x20] (cpu (a := 0x80) (s := ppu (fun p => { p with vbl := true })))))
      (fun t => t.nmi.pending && t.cycles == 11) = true := by decide

/-- T6 and T7. -/
theorem test_nmi_ignores_i :
    next (step (code 0x8000#16 [0xEA] (placeBytes 0xFFFA#16 [0x00, 0xA0] { State.reset with nmi := { linePrev := false, pending := true } })))
      (fun t => t.cpu.pc == 0xA000 && t.cpu.s == 0xFA && t.cpu.p.i && t.ram == [(0x1FB, 0x24), (0x1FD, 0x80)] && !t.nmi.pending && t.cycles == 14) = true := by decide

/-- R1: 0x7D then 0x5E to $2005, then 0x03 to $2000. -/
theorem test_scroll_writes :
    (let p := (afterWrite (afterWrite (afterWrite State.reset 0x2005#16 0x7D#8) 0x2005#16 0x5E#8) 0x2000#16 0x03#8).ppu
     p.t = 0x6D6F#15 ∧ p.x = 5#3 ∧ p.w = false ∧ p.v = 0#15) := by decide

/-- W4: a status read between the writes makes the next one a high byte. -/
theorem test_address_latch :
    (afterWrite (afterWrite (afterRead (afterWrite State.reset 0x2006#16 0x21#8) 0x2002#16) 0x2006#16 0x23#8)
      0x2006#16 0x10#8).ppu.v = 0x2310#15 := by decide

/-- B3: A and Start pressed, open bus 0x40; the ten reads. -/
theorem test_controller :
    (let held := { State.reset with inputs := { State.reset.inputs with buttons := { Buttons.released with a := true, start := true } }, busLatch := 0x40 }
     let s := afterWrite (afterWrite held 0x4016#16 0x01#8) 0x4016#16 0x00#8
     (List.range 10).map (fun k => readByte (padReads k s) 0x4016#16) =
       [0x41, 0x40, 0x40, 0x41, 0x40, 0x40, 0x40, 0x40, 0x41, 0x41]) := by decide

/-- B6, the transfer: RAM[0x200..0x207] = 0xFF, started on an odd cycle. -/
theorem test_oam_dma :
    (match runDma 0x02#8 (ram ((List.range 8).map fun i => (0x200 + i, 0xFF#8))) with
      | .ok _ t => t.cycles == 7 + 514 && t.ppu.oamAddr == 0x00 &&
          t.ppu.oam == [(0, 0xFF), (1, 0xFF), (2, 0xE3), (3, 0xFF), (4, 0xFF), (5, 0xFF), (6, 0xE3), (7, 0xFF)]
      | .error _ _ => false) = true := by decide +kernel

/-- T1: the reset sequence with a draw of zeros, from any registers, leaves the state after reset. -/
theorem test_reset_sequence :
    (match resetSequence zeros.ppuDraw (cpu (a := 1) (x := 2) (y := 3) (sp := 4) (p := 0xFF)) with
      | .ok _ t => t == State.reset
      | .error _ _ => false) = true := by decide +kernel

/-- T8: a faulted block accepts no reset. -/
theorem test_no_reset_when_faulted :
    (let s := { State.reset with fault := some (.illegalOpcode 0x02 0x8000) }
     s.requestReset = s ∧ faults (step s.requestReset) (fun _ => true) = true) := by decide

/-- The invariant is not true of every state: an OAM attribute byte with an unimplemented bit breaks it. -/
theorem test_inv_refuses : ¬ (ppu (fun p => { p with oam := [(2, 0x04)] })).Inv := by decide

/-! ### Witnesses: for every statement with hypotheses, a state and operands that meet them, at the bounds of a range -/

/-- The state after reset with rendering enabled, at a counter position. -/
def rendering (line dot : Nat) : State := ppu (fun p => { p with mask := 0x08, scanline := line, dot := dot })

/-- The state after reset, at a counter position, rendering disabled. -/
def blanked (line dot : Nat) : State := ppu (fun p => { p with scanline := line, dot := dot })

/-- All six flags set. -/
def flagsSet : State := cpu (p := 0xFF)

theorem ofNext {o : Host.Outcome State Fault Refusal} (h : next o (fun _ => true) = true) : ∃ t, o = .next t := by
  cases o with
  | next t => exact ⟨t, rfl⟩
  | fault f => cases h
  | refused f => cases h

theorem ofFault {o : Host.Outcome State Fault Refusal} (h : faults o (fun _ => true) = true) : ∃ f, o = .fault f := by
  cases o with
  | next t => cases h
  | fault f => exact ⟨f, rfl⟩
  | refused f => cases h

/-- The work ends normally with a value and a state of this property. -/
def okWith {α : Type} (r : EStateM.Result FaultRecord State α) (p : α → State → Bool) : Bool :=
  match r with
  | .ok a t => p a t
  | .error _ _ => false

theorem ofOk {α : Type} {r : EStateM.Result FaultRecord State α} {p : α → State → Bool} (h : okWith r p = true) :
    ∃ a t, r = .ok a t ∧ p a t = true := by
  cases r with
  | ok a t => exact ⟨a, t, rfl, h⟩
  | error e t => cases h

theorem ofVal {α : Type} [DecidableEq α] {r : EStateM.Result FaultRecord State α} {v : α}
    (h : okWith r (fun a _ => decide (a = v)) = true) : ∃ t, r = .ok v t := by
  obtain ⟨a, t, h1, h2⟩ := ofOk h
  exact ⟨t, by rw [h1, of_decide_eq_true h2]⟩

theorem witness_DecodedBytesAreTheEncoding : decode [0xB1, 0xFF, 0x42] = .instr (.ldaIndY 0xFF) [0x42] := by decide

theorem witness_StepRunsTheDecodedInstruction :
    (let s := code 0xFFFE#16 [0x8D, 0x34, 0x12]
     s.fetchesNext ∧ holdsCode s.cpu.pc = true ∧ holdsCode (s.cpu.pc + 1#16) = true ∧
       holdsCode (s.cpu.pc + 2#16) = true ∧
       decode [readByte s s.cpu.pc, readByte s (s.cpu.pc + 1#16), readByte s (s.cpu.pc + 2#16)] =
         .instr (.staAbs 0x34 0x12) []) ∧
    (let s := code 0x1FFD#16 [0xEA]
     s.fetchesNext ∧ holdsCode s.cpu.pc = true ∧ holdsCode (s.cpu.pc + 1#16) = true ∧
       holdsCode (s.cpu.pc + 2#16) = true ∧
       decode [readByte s s.cpu.pc, readByte s (s.cpu.pc + 1#16), readByte s (s.cpu.pc + 2#16)] =
         .instr .nop [0x00, 0x00]) := by decide

/-- In PRG ROM, and through the PPU's I/O latch. -/
theorem witness_IllegalOpcodeStopsTheBlock :
    (let s := code 0x8000#16 [0xFF]
     s.fetchesNext ∧ 0xFF#8 ∈ illegalOpcodes ∧ ∃ s1, memRead s.cpu.pc { s with framePulses := [] } = .ok 0xFF s1) ∧
    (let s := code 0x2000#16 [] (ppu (fun p => { p with ioLatch := 0x02 }))
     s.fetchesNext ∧ 0x02#8 ∈ illegalOpcodes ∧ ∃ s1, memRead s.cpu.pc { s with framePulses := [] } = .ok 0x02 s1) :=
  ⟨⟨by decide, by decide, ofVal (by decide)⟩, by decide, by decide, ofVal (by decide)⟩

theorem witness_FaultsAreRecordedAndFinal :
    (∃ f, step (code 0x8000#16 [0x02]) = .fault f) ∧
      ({ State.reset with fault := some (.illegalOpcode 0x02 0x8000) } : State).fault =
        some (.illegalOpcode 0x02 0x8000) :=
  ⟨ofFault (by decide), rfl⟩

theorem witness_ResetSequenceLeavesItsValues :
    ({ State.reset with fault := some (.ppuAddressOutOfRange 0x4000) } : State).fault ≠ none := by decide

theorem witness_StepTakesARequestedReset :
    ({ State.reset with nmi := { linePrev := true, pending := true } } : State).fault = none := rfl

theorem witness_ResetStateHasTheTableValues :
    (cart 32768 8192 .horizontal).prg.length = 32768 ∧ (cart 32768 8192 .horizontal).chr.length = 8192 ∧
      (∀ b ∈ (cart 32768 8192 .horizontal).prg, b = 0) ∧ (∀ b ∈ (cart 32768 8192 .horizontal).chr, b = 0) ∧
      (cart 32768 8192 .horizontal).mirroring = .horizontal :=
  ⟨(cart_length _ _ _).1, (cart_length _ _ _).2, fun _ h => List.eq_of_mem_replicate h,
    fun _ h => List.eq_of_mem_replicate h, rfl⟩

/-- Of both kinds; the other refused cartridges are in the `test_wf_…` theorems. -/
theorem witness_ConstructionRefusesOtherCartridges :
    (¬ (cart 16383 8192 .vertical).wf) ∧ (cart 16384 8192 .vertical).wf ∧ (cart 32768 8192 .horizontal).wf :=
  ⟨test_wf_refuses_prg_length, test_wf_accepts_nrom128, test_wf_accepts_nrom256⟩

theorem witness_StepKeepsTheInvariant : State.reset.Inv ∧ ∃ t, step State.reset = .next t :=
  ⟨by decide, ofNext (by decide)⟩

theorem witness_NoStepChangesTheCartridge :
    State.reset.inputs.resetReq = false ∧ ∃ t, step State.reset = .next t :=
  ⟨rfl, ofNext (by decide)⟩

theorem witness_NoInstructionDropsAPendingNmi :
    (let s := { State.reset with nmi := { linePrev := true, pending := true } }
     s.nmi.pending = true ∧ ∃ t, exec (.ldaAbs 0x02 0x20) s = .next t) :=
  ⟨rfl, ofNext (by decide)⟩

/-- The three accesses that fault. -/
theorem witness_InstructionsFaultOnlyOnRenderingAccesses :
    (∃ f, exec (.ldaAbs 0x07 0x20) (rendering 0 21) = .fault f) ∧
      (∃ f, exec (.staAbs 0x07 0x20) (rendering 239 0) = .fault f) ∧
      ∃ f, exec (.staAbs 0x04 0x20) (rendering 261 300) = .fault f :=
  ⟨ofFault (by decide), ofFault (by decide), ofFault (by decide)⟩

theorem witness_EveryInstructionCompletesWithRenderingOff : (blanked 0 21).renderingOff := rfl

/-- With a crossing and without. -/
theorem witness_InstructionsTakeTheTableCycles :
    (∃ t, exec (.ldaAbsX 0xFF 0x02) (cpu (x := 1)) = .next t) ∧ ∃ t, exec (.ldaAbsX 0xFE 0x02) (cpu (x := 1)) = .next t :=
  ⟨ofNext (by decide), ofNext (by decide)⟩

theorem witness_RegistersAreWrittenOnlyByTheirInstructions :
    (∃ t, exec (.aslZp 0x10) State.reset = .next t) ∧ opClass (.aslZp 0x10) ≠ .acc ∧
      mnemonic (.aslZp 0x10) ∉ ["LDA", "PLA", "TXA", "TYA", "ADC", "SBC", "AND", "ORA", "EOR"] ∧
      mnemonic (.aslZp 0x10) ∉ ["LDX", "TAX", "TSX", "INX", "DEX"] ∧
      mnemonic (.aslZp 0x10) ∉ ["LDY", "TAY", "INY", "DEY"] ∧
      mnemonic (.aslZp 0x10) ∉ ["TXS", "PHA", "PHP", "JSR", "BRK", "PLA", "PLP", "RTS", "RTI"] :=
  ⟨ofNext (by decide), by decide, by decide, by decide, by decide, by decide⟩

theorem witness_FlagsAreWrittenOnlyByTheirInstructions :
    (∃ t, exec .nop flagsSet = .next t) ∧
      mnemonic .nop ∉ ["ADC", "SBC", "CMP", "CPX", "CPY", "ASL", "LSR", "ROL", "ROR", "CLC", "SEC", "PLP", "RTI"] ∧
      mnemonic .nop ∉ ["LDA", "LDX", "LDY", "TAX", "TAY", "TXA", "TYA", "TSX", "PLA", "ADC", "SBC", "AND", "ORA", "EOR",
        "CMP", "CPX", "CPY", "INC", "INX", "INY", "DEC", "DEX", "DEY", "ASL", "LSR", "ROL", "ROR", "BIT", "PLP", "RTI"] ∧
      mnemonic .nop ∉ ["SEI", "CLI", "BRK", "PLP", "RTI"] ∧ mnemonic .nop ∉ ["SED", "CLD", "PLP", "RTI"] ∧
      mnemonic .nop ∉ ["ADC", "SBC", "BIT", "CLV", "PLP", "RTI"] :=
  ⟨ofNext (by decide), by decide, by decide, by decide, by decide, by decide⟩

theorem witness_NonStoringInstructionsKeepEveryCell :
    (∃ t, exec (.ldaAbs 0x07 0x20) State.reset = .next t) ∧ opClass (.ldaAbs 0x07 0x20) ≠ .write ∧
      opClass (.ldaAbs 0x07 0x20) ≠ .rmw ∧ mnemonic (.ldaAbs 0x07 0x20) ∉ ["PHA", "PHP", "JSR", "BRK"] :=
  ⟨ofNext (by decide), by decide, by decide, by decide⟩

/-- The stack wraps from S = 0x00 and S = 0x01; a cell below page one and one above it are not pushed to. -/
theorem witness_PushesStoreOnlyOnTheStack :
    (∃ t, exec .pha (cpu (sp := 0x00)) = .next t) ∧ (∃ t, exec .php (cpu (sp := 0x00)) = .next t) ∧
      (∃ t, exec (.jsr 0x00 0x90) (cpu (sp := 0x00)) = .next t) ∧ (∃ t, exec (.brk 0xEA) (cpu (sp := 0x01)) = .next t) ∧
      (∀ i ∈ [Instr.pha, .php, .jsr 0x00 0x90, .brk 0xEA], mnemonic i ∈ ["PHA", "PHP", "JSR", "BRK"]) ∧
      (∀ l ∈ [Loc.ram 0x0FF, .ram 0x200, .vram 0x100], l ≠ .ram (stackCell 0x01) ∧ l ≠ .ram (stackCell 0x00) ∧
        l ≠ .ram (stackCell (0x00 - 1#8))) :=
  ⟨ofNext (by decide), ofNext (by decide), ofNext (by decide), ofNext (by decide), by decide, by decide⟩

theorem witness_ControlRegistersChangeOnlyByStores :
    (∃ t, exec (.bitAbs 0x02 0x20) (rendering 0 21) = .next t) ∧ opClass (.bitAbs 0x02 0x20) ≠ .write ∧
      opClass (.bitAbs 0x02 0x20) ≠ .rmw :=
  ⟨ofNext (by decide), by decide, by decide⟩

theorem witness_OperandReadsChangeNoRegisterAndNoCell :
    State.reset.renderingOff ∧ ∃ t, readOperand (.ldaAbs 0x07 0x20) State.reset = .ok 0x00 t :=
  ⟨rfl, ofVal (by decide)⟩

theorem noPpu {a : Word} (h : (match decodeAddr a with | .ppu _ => false | _ => true) = true) (r : PpuReg) :
    decodeAddr a ≠ .ppu r := fun e => by rw [e] at h; cases h

/-- An instruction of each mode with the operand byte 0xFF, and with it the wrap inside page zero; for (zp),Y a pointer
0x02FF at 0x00FF and 0x0000 without a crossing, with one while rendering is disabled, and with one in RAM while it is on. -/
theorem witness_OneByteOperandFormsReadAndStore :
    [Instr.ldaImm 0xFF, .ldaZp 0xFF, .staZpX 0xFF, .ldxZpY 0xFF, .staIndX 0xFF, .ldaIndY 0xFF, .staIndY 0xFF].map
        (fun i => (i.mode, i.operandBytes)) =
      [(.imm, [0xFF]), (.zp, [0xFF]), (.zpx, [0xFF]), (.zpy, [0xFF]), (.indx, [0xFF]), (.indy, [0xFF]), (.indy, [0xFF])] ∧
    (let m : Memory 8 := [(0x00, 0x02), (0xFF, 0xFF)]
     (let s := cpu (y := 0) (s := ram m)
      (s.ram.read 0xFF).toNat + s.cpu.y.toNat < 256) ∧
     (let s := cpu (y := 1) (s := ram m)
      ¬ (s.ram.read 0xFF).toNat + s.cpu.y.toNat < 256 ∧ faultFree s (cat16 (s.ram.read 0) (s.ram.read 0xFF + s.cpu.y))) ∧
     (let s := cpu (y := 1) (s := ram m (rendering 0 21))
      ¬ (s.ram.read 0xFF).toNat + s.cpu.y.toNat < 256 ∧ faultFree s (cat16 (s.ram.read 0) (s.ram.read 0xFF + s.cpu.y)))) :=
  ⟨by decide, by decide, ⟨by decide, .inl rfl⟩, by decide, .inr (noPpu (by decide))⟩

/-- An instruction of each mode; a crossing and none; a wrap to 0x0000 from 0xFFFF; rendering on, the dummy read in RAM. -/
theorem witness_AbsoluteFormsReadAndStore :
    [Instr.ldaAbs 0xFF 0x02, .ldaAbsX 0xFF 0x02, .staAbsX 0xFF 0x02, .ldaAbsY 0xFF 0x02, .staAbsY 0xFF 0x02].map
        (fun i => (i.mode, i.operandBytes)) =
      [(.abs, [0xFF, 0x02]), (.absx, [0xFF, 0x02]), (.absx, [0xFF, 0x02]), (.absy, [0xFF, 0x02]), (.absy, [0xFF, 0x02])] ∧
    (let s := cpu (x := 0) (y := 1)
     (0xFF#8).toNat + s.cpu.x.toNat < 256 ∧ holdsCode (cat16 0x02 0xFF + zext16 s.cpu.x) = true ∧
       ¬ (0xFF#8).toNat + s.cpu.y.toNat < 256 ∧ holdsCode (cat16 0xFF 0xFF + zext16 s.cpu.y) = true) ∧
    faultFree (cpu (y := 1)) (cat16 0xFF (0xFF + 0x01)) ∧
    (let s := cpu (x := 1) (s := rendering 0 21)
     ¬ (0xFF#8).toNat + s.cpu.x.toNat < 256 ∧ faultFree s (cat16 0x1F (0xFF + s.cpu.x))) :=
  ⟨by decide, by decide, .inl rfl, by decide, .inr (noPpu (by decide))⟩

theorem witness_LoadsSetTheirRegister :
    (∃ s1, readOperand (.ldaImm 0x80) State.reset = .ok 0x80 s1) ∧
      (∃ s1, readOperand (.ldxZpY 0xFF) (cpu (y := 2) (s := ram [(1, 0x77)])) = .ok 0x77 s1) ∧
      (∃ s1, readOperand (.ldyAbs 0x00 0x00) State.reset = .ok 0x00 s1) ∧
      mnemonic (.ldaImm 0x80) = "LDA" ∧ mnemonic (.ldxZpY 0xFF) = "LDX" ∧ mnemonic (.ldyAbs 0x00 0x00) = "LDY" :=
  ⟨ofVal (by decide), ofVal (by decide), ofVal (by decide), rfl, rfl, rfl⟩

theorem ofStore {i : Instr} {s : State} {ea : Word}
    (h : okWith (storeAddr i s) (fun a t => decide (a = ea) && decide (writeFault t ea = none)) = true) :
    ∃ s1, storeAddr i s = .ok ea s1 ∧ writeFault s1 ea = none := by
  obtain ⟨a, t, h1, h2⟩ := ofOk h
  rw [Bool.and_eq_true] at h2
  exact ⟨t, by rw [h1, of_decide_eq_true h2.1], of_decide_eq_true h2.2⟩

theorem witness_StoresWriteTheirRegister :
    (∃ s1, storeAddr (.staAbsX 0xFF 0x1F) State.reset = .ok 0x1FFF s1 ∧ writeFault s1 0x1FFF = none) ∧
      (∃ s1, storeAddr (.stxAbs 0x07 0x20) State.reset = .ok 0x2007 s1 ∧ writeFault s1 0x2007 = none) ∧
      (∃ s1, storeAddr (.styZpX 0xFF) State.reset = .ok 0x00FF s1 ∧ writeFault s1 0x00FF = none) ∧
      (∀ i ∈ [Instr.staAbsX 0xFF 0x1F, .stxAbs 0x07 0x20, .styZpX 0xFF], opClass i = .write) ∧
      decodeAddr 0x1FFF = .ram 0x7FF ∧ storeLoc State.reset 0x2007 ≠ some (.ram 0) :=
  ⟨ofStore (by decide), ofStore (by decide), ofStore (by decide), by decide, by decide, by decide⟩

/-- The same premise in TransfersAndIndexSteps…, AccumulatorShifts… and FlagInstructions…. -/
theorem witness_TransfersAndIndexStepsActOnRegisters :
    (∃ s1, memRead State.reset.cpu.pc State.reset = .ok 0x00 s1) ∧
      ∃ s1, memRead (code 0x2002#16 []).cpu.pc (code 0x2002#16 []) = .ok 0x00 s1 :=
  ⟨ofVal (by decide), ofVal (by decide)⟩

theorem witness_AccumulatorShiftsActOnA :
    ∃ s1, memRead flagsSet.cpu.pc flagsSet = .ok 0x00 s1 :=
  ofVal (by decide)

theorem witness_FlagInstructionsChangeTheirFlag :
    ∃ s1, memRead flagsSet.cpu.pc flagsSet = .ok 0x00 s1 :=
  ofVal (by decide)

/-- Rendering disabled, and rendering on with PC in RAM; the stack at its wrap. The same premise in PullInstructions…,
JsrPushes… and RtiRestores…. -/
theorem witness_PushInstructionsStoreAndDecrement :
    (let s := cpu (sp := 0x00)
     faultFree s s.cpu.pc) ∧ (let s := rendering 0 21
     faultFree s s.cpu.pc) := ⟨.inl rfl, .inr (fun r h => by cases h)⟩

theorem witness_PullInstructionsIncrementAndLoad :
    (let s := cpu (sp := 0xFF)
     faultFree s s.cpu.pc) := .inl rfl

theorem witness_JsrPushesItsLastAddress :
    (let s := code 0x01FC#16 [0x20, 0x00, 0x90]
     faultFree s s.cpu.pc ∧ holdsCode s.cpu.pc = true) := ⟨.inl rfl, by decide⟩

theorem witness_RtsReturnsPastThePulledAddress :
    State.reset.renderingOff ∧
    (let s := cpu (sp := 0xFF) (s := { rendering 0 21 with ram := [(0x100, 0xFF), (0x101, 0xFF)] })
     (∀ r, decodeAddr s.cpu.pc ≠ .ppu r) ∧
       ∀ r, decodeAddr (cat16 (s.ram.read (stackCell (s.cpu.s + 2#8))) (s.ram.read (stackCell (s.cpu.s + 1#8)))) ≠ .ppu r) :=
  ⟨rfl, noPpu (by decide), noPpu (by decide)⟩

theorem witness_RtiRestoresFlagsAndPc :
    (let s := cpu (sp := 0xFE)
     faultFree s s.cpu.pc) := .inl rfl

theorem witness_AdcAddsWithCarry :
    mnemonic (.adcImm 0xFF) = "ADC" ∧ ∃ s1, readOperand (.adcImm 0xFF) (cpu (a := 0xFF) (p := 0x25)) = .ok 0xFF s1 :=
  ⟨rfl, ofVal (by decide)⟩

theorem witness_SbcSubtractsWithBorrow :
    mnemonic (.sbcZp 0x10) = "SBC" ∧ ∃ s1, readOperand (.sbcZp 0x10) (ram [(0x10, 0x80)]) = .ok 0x80 s1 :=
  ⟨rfl, ofVal (by decide)⟩

theorem witness_LogicCombinesWithA :
    (∀ p ∈ [(Instr.andZp 0x10, "AND"), (.oraZp 0x10, "ORA"), (.eorZp 0x10, "EOR"), (.bitZp 0x10, "BIT")],
      mnemonic p.1 = p.2) ∧
    (∃ s1, readOperand (.andZp 0x10) (ram [(0x10, 0xC0)]) = .ok 0xC0 s1) ∧
    (∃ s1, readOperand (.oraZp 0x10) (ram [(0x10, 0xC0)]) = .ok 0xC0 s1) ∧
    (∃ s1, readOperand (.eorZp 0x10) (ram [(0x10, 0xC0)]) = .ok 0xC0 s1) ∧
    ∃ s1, readOperand (.bitZp 0x10) (ram [(0x10, 0xC0)]) = .ok 0xC0 s1 :=
  ⟨by decide, ofVal (by decide), ofVal (by decide), ofVal (by decide), ofVal (by decide)⟩

theorem witness_ComparesOrderTheirRegister :
    (∀ p ∈ [(Instr.cmpImm 0x80, "CMP"), (.cpxImm 0x80, "CPX"), (.cpyImm 0x80, "CPY")], mnemonic p.1 = p.2) ∧
    (∃ s1, readOperand (.cmpImm 0x80) State.reset = .ok 0x80 s1) ∧
    (∃ s1, readOperand (.cpxImm 0x80) State.reset = .ok 0x80 s1) ∧
    ∃ s1, readOperand (.cpyImm 0x80) State.reset = .ok 0x80 s1 :=
  ⟨by decide, ofVal (by decide), ofVal (by decide), ofVal (by decide)⟩

/-- The premises of RmwWritesBackThenTheResult for one instruction. -/
def rmwPremises (i : Instr) (mn : String) (s : State) (ea : Word) (m r : Byte) : Prop :=
  opClass i = .rmw ∧ mnemonic i = mn ∧ ∃ s1 s2 s3 s4, storeAddr i s = .ok ea s1 ∧ memRead ea s1 = .ok m s2 ∧
    memWrite ea m s2 = .ok () s3 ∧ memWrite ea r s3 = .ok () s4

theorem ofRmw {i : Instr} {mn : String} {s : State} {ea : Word} {m r : Byte} (hc : opClass i = .rmw) (hm : mnemonic i = mn)
    (h : okWith (storeAddr i s) (fun a s1 => decide (a = ea) && okWith (memRead ea s1) (fun b s2 => decide (b = m) &&
      okWith (memWrite ea m s2) (fun _ s3 => okWith (memWrite ea r s3) (fun _ _ => true)))) = true) :
    rmwPremises i mn s ea m r := by
  obtain ⟨a, s1, h1, h⟩ := ofOk h
  rw [Bool.and_eq_true] at h
  obtain ⟨b, s2, h2, h'⟩ := ofOk h.2
  rw [Bool.and_eq_true] at h'
  obtain ⟨_, s3, h3, h''⟩ := ofOk h'.2
  obtain ⟨_, s4, h4, _⟩ := ofOk h''
  rw [of_decide_eq_true h.1] at h1
  rw [of_decide_eq_true h'.1] at h2
  exact ⟨hc, hm, s1, s2, s3, s4, h1, h2, h3, h4⟩

/-- At 0x0010 in RAM, the carry set; and DEC on OAMDATA. -/
theorem witness_RmwWritesBackThenTheResult :
    (let s := cpu (p := 0x25) (s := ram [(0x10, 0x81)])
     rmwPremises (.incZp 0x10) "INC" s 0x10 0x81 (0x81 + 1) ∧ rmwPremises (.decZp 0x10) "DEC" s 0x10 0x81 (0x81 - 1) ∧
     rmwPremises (.aslZp 0x10) "ASL" s 0x10 0x81 (0x81 <<< 1) ∧ rmwPremises (.lsrZp 0x10) "LSR" s 0x10 0x81 (0x81 >>> 1) ∧
     rmwPremises (.rolZp 0x10) "ROL" s 0x10 0x81 (0x81 <<< 1 ||| 0x01) ∧
     rmwPremises (.rorZp 0x10) "ROR" s 0x10 0x81 (0x81 >>> 1 ||| 0x80)) ∧
    rmwPremises (.decAbs 0x04 0x20) "DEC" State.reset 0x2004 0x00 (0x00 - 1) :=
  ⟨⟨ofRmw rfl rfl (by decide), ofRmw rfl rfl (by decide), ofRmw rfl rfl (by decide), ofRmw rfl rfl (by decide),
    ofRmw rfl rfl (by decide), ofRmw rfl rfl (by decide)⟩, ofRmw rfl rfl (by decide)⟩

/-- Each branch taken and not taken, with the flags clear and set; rendering off, and on with PC in page 0xFF. -/
theorem witness_BranchesFollowTheirFlag :
    (∀ s ∈ [cpu (p := 0x20), flagsSet], (0x90#8, Instr.bcc 0x80, !s.cpu.p.c) ∈
      [(0x90#8, Instr.bcc 0x80, !s.cpu.p.c), (0xB0#8, .bcs 0x80, s.cpu.p.c), (0xF0#8, .beq 0x80, s.cpu.p.z),
       (0xD0#8, .bne 0x80, !s.cpu.p.z), (0x30#8, .bmi 0x80, s.cpu.p.n), (0x10#8, .bpl 0x80, !s.cpu.p.n),
       (0x50#8, .bvc 0x80, !s.cpu.p.v), (0x70#8, .bvs 0x80, s.cpu.p.v)]) ∧
    [cpu (p := 0x20), flagsSet].map (fun s => [!s.cpu.p.c, s.cpu.p.c, s.cpu.p.z, !s.cpu.p.z, s.cpu.p.n, !s.cpu.p.n,
      !s.cpu.p.v, s.cpu.p.v]) =
      [[true, false, false, true, false, true, true, false], [false, true, true, false, true, false, false, true]] ∧
    (cpu (p := 0x20)).renderingOff ∧ 0x40 ≤ (page (code 0xFFFF#16 []).cpu.pc).toNat ∧
    (page State.reset.cpu.pc).toNat < 0x20 := by decide

theorem witness_JumpsSetPc :
    (∃ s1 s2, memRead (cat16 0x02 0xFF) (ram [(0x200, 0x12), (0x2FF, 0x34)]) = .ok 0x34 s1 ∧
      memRead (cat16 0x02 (0xFF + 1#8)) s1 = .ok 0x12 s2) := by
  have h : okWith (memRead (cat16 0x02 0xFF) (ram [(0x200, 0x12), (0x2FF, 0x34)])) (fun b s1 => decide (b = 0x34) &&
      okWith (memRead (cat16 0x02 (0xFF + 1#8)) s1) (fun b _ => decide (b = 0x12))) = true := by decide
  obtain ⟨b, s1, h1, h⟩ := ofOk h
  rw [Bool.and_eq_true] at h
  obtain ⟨s2, h2⟩ := ofVal h.2
  exact ⟨s1, s2, by rw [h1, of_decide_eq_true h.1], h2⟩

/-- Work that ends in a state of which this holds. -/
theorem ofDone {α : Type} {r : EStateM.Result FaultRecord State α} {q : State → Prop} [DecidablePred q]
    (h : okWith r (fun _ t => decide (q t)) = true) : ∃ a t, r = .ok a t ∧ q t := by
  obtain ⟨a, t, h1, h2⟩ := ofOk h
  exact ⟨a, t, h1, of_decide_eq_true h2⟩

theorem ofNextIs {o : Host.Outcome State Fault Refusal} {q : State → Prop} [DecidablePred q]
    (h : next o (fun t => decide (q t)) = true) : ∃ t, o = .next t ∧ q t := by
  cases o with
  | next t => exact ⟨t, rfl, of_decide_eq_true h⟩
  | fault f => cases h
  | refused f => cases h

/-- An NMI with NMI disabled and no vertical blank beginning; one with NMI enabled during whose entry vertical blank begins;
and an IRQ. -/
theorem witness_InterruptsAreTakenAtTheBoundary :
    (let s := { State.reset with nmi := { linePrev := false, pending := true } }
     s.fault = none ∧ s.inputs.resetReq = false ∧ faultFree s s.cpu.pc ∧ s.nmi.pending = true ∧
       s.ppu.ctrl.getLsbD 7 = false ∧ s.nmi.linePrev = s.ppu.nmiLine ∧ ∃ t, step s = .next t ∧ t.framePulses = []) ∧
    (let s := { ppu (fun p => { p with ctrl := 0x80 }) (blanked 240 340) with nmi := { linePrev := false, pending := true } }
     s.fault = none ∧ s.inputs.resetReq = false ∧ faultFree s s.cpu.pc ∧ s.nmi.pending = true ∧
       s.nmi.linePrev = false ∧ s.ppu.vbl = false ∧ s.ppu.ctrl.getLsbD 7 = true ∧
       ∃ t, step s = .next t ∧ t.framePulses ≠ []) ∧
    (let s := cpu (p := 0x20) (s := { State.reset with inputs := { State.reset.inputs with irqN := false } })
     s.fault = none ∧ s.inputs.resetReq = false ∧ faultFree s s.cpu.pc ∧ s.nmi.pending = false ∧
       s.inputs.irqN = false ∧ s.cpu.p.i = false) :=
  ⟨⟨rfl, rfl, .inl rfl, rfl, by decide, by decide, ofNextIs (by decide)⟩,
    ⟨rfl, rfl, .inl rfl, rfl, rfl, by decide, by decide, ofNextIs (by decide)⟩, rfl, rfl, .inl rfl, rfl, rfl, rfl⟩

/-- The state after a handler or subroutine that loaded A and wrote the cells 0x0010 and 0x0200. -/
def handled (t : State) : State :=
  { t with cpu := { t.cpu with a := 0x55 }, ram := (t.ram.write 0x010 0x77).write 0x200 0x77 }

/-- `u` is `t` after work that kept S and these stack cells and changed another cell, and `i` ends normally in it. -/
abbrev returnsFrom (i : Instr) (t : State) (stack : List Byte) : Prop :=
  (handled t).cpu.s = t.cpu.s ∧ stack.map (fun k => (handled t).ram.read (stackCell k)) =
    stack.map (fun k => t.ram.read (stackCell k)) ∧ (handled t).ram ≠ t.ram ∧
    next (exec i (handled t)) (fun _ => true) = true

/-- Each frame wraps in page one. -/
theorem witness_ReturnsUndoTheirEntries :
    (∃ t v, enter nmiVector (cpu (sp := 0x01)) = .ok () t ∧ (handled t).cpu.s = t.cpu.s ∧
      (∀ k ∈ [0x01#8, 0x00, 0xFF], (handled t).ram.read (stackCell k) = t.ram.read (stackCell k)) ∧
      exec .rti (handled t) = .next v) ∧
    (∃ t v, exec (.brk 0xEA) (cpu (sp := 0x01)) = .next t ∧ (handled t).cpu.s = t.cpu.s ∧
      (∀ k ∈ [0x01#8, 0x00, 0xFF], (handled t).ram.read (stackCell k) = t.ram.read (stackCell k)) ∧
      exec .rti (handled t) = .next v) ∧
    ∃ t v, exec (.jsr 0x00 0x90) (cpu (sp := 0x00)) = .next t ∧ (handled t).cpu.s = t.cpu.s ∧
      (∀ k ∈ [0x00#8, 0xFF], (handled t).ram.read (stackCell k) = t.ram.read (stackCell k)) ∧
      exec .rts (handled t) = .next v := by
  refine ⟨?_, ?_, ?_⟩
  · obtain ⟨_, t, h, h1, h2, _, h3⟩ := ofDone (r := enter nmiVector (cpu (sp := 0x01)))
      (q := fun t => returnsFrom .rti t [0x01, 0x00, 0xFF]) (by decide)
    obtain ⟨v, h4⟩ := ofNext h3
    exact ⟨t, v, h, h1, List.map_inj_left.mp h2, h4⟩
  · obtain ⟨t, h, h1, h2, _, h3⟩ := ofNextIs (o := exec (.brk 0xEA) (cpu (sp := 0x01)))
      (q := fun t => returnsFrom .rti t [0x01, 0x00, 0xFF]) (by decide)
    obtain ⟨v, h4⟩ := ofNext h3
    exact ⟨t, v, h, h1, List.map_inj_left.mp h2, h4⟩
  · obtain ⟨t, h, h1, h2, _, h3⟩ := ofNextIs (o := exec (.jsr 0x00 0x90) (cpu (sp := 0x00)))
      (q := fun t => returnsFrom .rts t [0x00, 0xFF]) (by decide)
    obtain ⟨v, h4⟩ := ofNext h3
    exact ⟨t, v, h, h1, List.map_inj_left.mp h2, h4⟩

theorem witness_RamAndRegistersAreMirrored :
    (∀ a ∈ [0x0000#16, 0x07FF#16, 0x0800#16, 0x1FFF#16], a.toNat ≤ 0x1FFF) ∧
    ∀ p ∈ [(0x2000#16, 0x3FF8#16), (0x3FFF#16, 0x2007#16)], 0x2000 ≤ p.1.toNat ∧ p.1.toNat ≤ 0x3FFF ∧
      0x2000 ≤ p.2.toNat ∧ p.2.toNat ≤ 0x3FFF ∧ p.1.toNat % 8 = p.2.toNat % 8 := by simp

theorem witness_PrgRomIsReadOnly : ∀ a ∈ [0x8000#16, 0xBFFF#16, 0xC000#16, 0xFFFF#16], 0x8000 ≤ a.toNat := by simp

theorem witness_UnmappedAddressesAreOpenBus :
    (∀ a ∈ [0x4000#16, 0x4013#16, 0x4015#16, 0x4018#16, 0x401F#16, 0x4020#16, 0x7FFF#16],
      (0x4000 ≤ a.toNat ∧ a.toNat ≤ 0x4013) ∨ a.toNat = 0x4015 ∨ (0x4018 ≤ a.toNat ∧ a.toNat ≤ 0x7FFF)) ∧
    (0x4017#16).toNat = 0x4017 := by simp

theorem witness_NmiEdgeIsLatched :
    (let s := ppu (fun p => { p with vbl := true })
     s.nmi.linePrev = false ∧ s.ppu.vbl = true ∧ (0x80#8).getLsbD 7 = true) := by decide

theorem witness_WriteTwiceRegistersAssembleTheirPair :
    State.reset.ppu.w = false ∧ (ppu (fun p => { p with w := true })).ppu.w = true := ⟨rfl, rfl⟩

/-- Every clause's address range at both ends. -/
theorem witness_PpuDataMovesTheBufferAndTheAddress :
    (rendering 0 21).ppu.inRender = true ∧ (rendering 240 0).ppu.inRender = false ∧
    [0x0000#15, 0x1FFF#15, 0x2000#15, 0x3EFF#15, 0x3F00#15, 0x7FFF#15].map
        (fun v => ((v.setWidth 14).setWidth 16 : Word).toNat) =
      [0x0000, 0x1FFF, 0x2000, 0x3EFF, 0x3F00, 0x3FFF] := by decide

theorem witness_OamDataStoresAndSteps :
    (rendering 261 340).ppu.inRender = true ∧ (rendering 241 0).ppu.inRender = false ∧
      (blanked 0 0).ppu.inRender = false := by decide

theorem witness_NametablesAndPaletteAreMirrored :
    (0x3FF < 0x400) ∧ (0xEFF < 0xF00) ∧ (31 < 32 ∧ 7 < 8) ∧
      ∀ a ∈ [0x3F00#16, 0x3FFF#16], 0x3F00 ≤ a.toNat ∧ a.toNat ≤ 0x3FFF := by simp

theorem witness_PlainWritesStoreAndWrongDirectionsOnlyLatch :
    ∀ a ∈ [0x2000#16, 0x3FFF#16], 0x2000 ≤ a.toNat ∧ a.toNat ≤ 0x3FFF := by simp

theorem witness_FrameIsItsDots :
    (blanked 0 0).ppu.countersOk ∧ (blanked 261 340).ppu.countersOk ∧ (blanked 261 340).renderingOff := by decide

/-- A skipped dot, a dot not skipped for each reason, and the dots of the two events. -/
theorem witness_VblankAndTheSkipFollowTheCounters :
    (let s := ppu (fun p => { p with oddFrame := true }) (rendering 261 339)
     s.ppu.scanline = 261 ∧ s.ppu.dot = 339 ∧ s.ppu.oddFrame = true ∧ s.ppu.renderingEnabled = true) ∧
    (let s := ppu (fun p => { p with oddFrame := true }) (blanked 261 339)
     s.ppu.scanline = 261 ∧ s.ppu.dot = 339 ∧ ¬ (s.ppu.oddFrame = true ∧ s.ppu.renderingEnabled = true)) ∧
    ((tick (blanked 241 0)).ppu.scanline = 241 ∧ (tick (blanked 241 0)).ppu.dot = 1) ∧
    ((tick (blanked 261 0)).ppu.scanline = 261 ∧ (tick (blanked 261 0)).ppu.dot = 1) ∧
    ((tick (blanked 261 340)).ppu.scanline = 0 ∧ (tick (blanked 261 340)).ppu.dot = 0) ∧
    (let s := ppu (fun p => { p with s0hit := true, sovf := true }) (rendering 239 256)
     s.ppu.s0hit = true ∧ s.ppu.sovf = true ∧ (tick s).ppu.dot = 257 ∧ (tick s).ppu.s0hit = true ∧
       (tick s).ppu.sovf = true) := by decide

/-- Outside rendering, and on a rendering line: the first and last dot of each update, the dots beside them, and a dot that
moves nothing. -/
theorem witness_RenderingMovesTheScrollAddress :
    (tick (blanked 0 256)).ppu.inRender = false ∧ (tick (rendering 240 256)).ppu.inRender = false ∧
    [rendering 0 7, rendering 239 255, rendering 0 256, rendering 239 319, rendering 0 327, rendering 0 335, rendering 0 336,
      rendering 261 279, rendering 261 303, rendering 261 304].map
        (fun s => ((tick s).ppu.inRender, (tick s).ppu.scanline, (tick s).ppu.dot)) =
      [(true, 0, 8), (true, 239, 256), (true, 0, 257), (true, 239, 320), (true, 0, 328), (true, 0, 336), (true, 0, 337),
        (true, 261, 280), (true, 261, 304), (true, 261, 305)] := by decide

/-- A request and none; pages of RAM and of PRG ROM at their ends; rendering disabled; rendering on from the first dot of
vertical blank, from the last dot that leaves room for 513 cycles, and for 514. -/
theorem witness_OamDmaCopiesItsPage :
    State.reset.dmaRequest = none ∧ ({ State.reset with dmaRequest := some 0x02 } : State).dmaRequest = some 0x02 ∧
    ((0x1F#8).toNat < 0x20 ∧ 0x80 ≤ (0x80#8).toNat ∧ 0x80 ≤ (0xFF#8).toNat) ∧ State.reset.renderingOff ∧
    (let s := rendering 241 1
     ¬ s.renderingOff ∧ 240 ≤ s.ppu.scanline ∧ s.ppu.dot ≤ 340 ∧
       s.ppu.scanline * 341 + s.ppu.dot + 3 * (514 - 1) < 261 * 341) ∧
    (let s := { rendering 256 168 with cycles := 8 }
     ¬ s.cycles % 2 = 1 ∧ 240 ≤ s.ppu.scanline ∧ s.ppu.dot ≤ 340 ∧
       s.ppu.scanline * 341 + s.ppu.dot + 3 * (513 - 1) = 261 * 341 - 1) ∧
    (let s := { rendering 256 165 with cycles := 7 }
     s.cycles % 2 = 1 ∧ 240 ≤ s.ppu.scanline ∧ s.ppu.dot ≤ 340 ∧
       s.ppu.scanline * 341 + s.ppu.dot + 3 * (514 - 1) = 261 * 341 - 1) := by decide

end Sys2Proof.Tests
end

section
/-! SUPPORT. The proofs of the scope's statements: what no step changes (00_scope R21), construction (R22), and the stack
instructions over `Push` and `Pull` (R13). -/

namespace Sys2Proof.Machine

/-! ### Stack instructions (41_stack) -/

/-- Bit 5 of the image of P is always 1 (10_state R46). -/
theorem pImage_getLsbD_five (p : Flags) (b : Bool) : (pImage p b).getLsbD 5 = true := by
  simp only [pImage, BitVec.getLsbD_append]
  rfl

/-- Bit 4 of the image of P is the B bit it is pushed with (10_state R46). -/
theorem pImage_getLsbD_four (p : Flags) (b : Bool) : (pImage p b).getLsbD 4 = b := by
  simp only [pImage, BitVec.getLsbD_append]
  simp

/-- The dummy read of cycle 2 completes where PC is fault-free, and keeps the registers and RAM (30_encoding R203). -/
theorem dummyPc_free {s : State} (h : faultFree s s.cpu.pc) :
    ∃ t, dummyPc s = .ok () t ∧ t.cpu = s.cpu ∧ t.ram = s.ram ∧ t.cycles = s.cycles + 1 := by
  have hread := memRead_ok (readFault_free h)
  obtain ⟨-, hcpu, hcycles, hram, -⟩ := memRead_frame hread
  exact ⟨_, by rw [dummyPc_apply, hread], hcpu, hram, hcycles⟩

/-- What PHA and PHP share (41_stack R320, R321): the byte `v` of the registers goes to the stack cell S names, and S
steps down. -/
theorem pushing_next {s : State} (v : Cpu → Byte) (h : faultFree s s.cpu.pc) :
    ∃ t, outcome (do dummyPc; let r ← getCpu; push (v r)) s = .next t ∧
      t.ram = s.ram.write (stackCell s.cpu.s) (v s.cpu) ∧
      t.cpu = { s.cpu with s := s.cpu.s - 1#8 } ∧ t.cycles = s.cycles + 2 := by
  obtain ⟨u, hdummy, hcpu, hram, hcycles⟩ := dummyPc_free h
  refine ⟨_, outcome_ok (by rw [bind_ok hdummy, bind_ok (getCpu_apply u), push_apply]), ?_⟩
  simp [hcpu, hram, hcycles]

/-- What PLA and PLP share (41_stack R322, R323): S steps up, and the registers take the byte of the stack cell it then
names by `f`. -/
theorem pulling_next {s : State} (f : Byte → Cpu → Cpu) (h : faultFree s s.cpu.pc) :
    ∃ t, outcome (do dummyPc; dummyStack; let b ← pull; modifyCpu (f b)) s = .next t ∧
      t.ram = s.ram ∧ t.cycles = s.cycles + 3 ∧
      t.cpu = f (s.ram.read (stackCell (s.cpu.s + 1#8))) { s.cpu with s := s.cpu.s + 1#8 } := by
  obtain ⟨u, hdummy, hcpu, hram, hcycles⟩ := dummyPc_free h
  refine ⟨_, outcome_ok (by
    rw [bind_ok hdummy, bind_ok (dummyStack_apply u), bind_ok (pull_apply _), modifyCpu_apply]), ?_⟩
  simp [hcpu, hram, hcycles]

/-- Settles O29: PHA and PHP are the pushing sequence with A and with the image of P. -/
theorem pushInstructionsStoreAndDecrement : Obligations.PushInstructionsStoreAndDecrement := by
  intro s h
  exact ⟨rfl, rfl, pushing_next Cpu.a h, pushing_next (fun r => pImage r.p true) h,
    pImage_getLsbD_five _ _, pImage_getLsbD_four _ _⟩

/-- Settles O30: PLA and PLP are the pulling sequence with `Cpu.loadA` and with the flags of the byte. -/
theorem pullInstructionsIncrementAndLoad : Obligations.PullInstructionsIncrementAndLoad := by
  intro s h
  exact ⟨rfl, rfl, pulling_next Cpu.loadA h, pulling_next (fun b r => { r with p := pulledFlags b }) h⟩

/-! ### The reset sequence (70_reset_and_hazards R700) -/

/-- The bus latch takes no part in the end of a cycle. -/
theorem endCycle_withBusLatch (s : State) (b : Byte) :
    endCycle { s with busLatch := b } = { endCycle s with busLatch := b } := rfl

/-- What the end of a cycle leaves alone, cycles without an access leave alone. -/
theorem idleCycles_field {α : Type} (f : State → α) (h : ∀ s, f (endCycle s) = f s) (n : Nat) (s : State) :
    f (idleCycles n s) = f s := by
  induction n generalizing s with
  | zero => rfl
  | succ n ih => exact (ih (endCycle s)).trans (h s)

@[simp] theorem idleCycles_ram (n : Nat) (s : State) : (idleCycles n s).ram = s.ram :=
  idleCycles_field State.ram endCycle_ram n s
@[simp] theorem idleCycles_board (n : Nat) (s : State) : (idleCycles n s).board = s.board :=
  idleCycles_field State.board endCycle_board n s
@[simp] theorem idleCycles_inputs (n : Nat) (s : State) : (idleCycles n s).inputs = s.inputs :=
  idleCycles_field State.inputs endCycle_inputs n s
@[simp] theorem idleCycles_ppu_ioLatch (n : Nat) (s : State) : (idleCycles n s).ppu.ioLatch = s.ppu.ioLatch :=
  idleCycles_field (·.ppu.ioLatch) endCycle_ppu_ioLatch n s
@[simp] theorem idleCycles_ppu_readBuffer (n : Nat) (s : State) :
    (idleCycles n s).ppu.readBuffer = s.ppu.readBuffer :=
  idleCycles_field (·.ppu.readBuffer) endCycle_ppu_readBuffer n s
@[simp] theorem idleCycles_ppu_vram (n : Nat) (s : State) : (idleCycles n s).ppu.vram = s.ppu.vram :=
  idleCycles_field (·.ppu.vram) endCycle_ppu_vram n s
@[simp] theorem idleCycles_ppu_pal (n : Nat) (s : State) : (idleCycles n s).ppu.pal = s.ppu.pal :=
  idleCycles_field (·.ppu.pal) endCycle_ppu_pal n s
@[simp] theorem idleCycles_ppu_oam (n : Nat) (s : State) : (idleCycles n s).ppu.oam = s.ppu.oam :=
  idleCycles_field (·.ppu.oam) endCycle_ppu_oam n s

@[simp] theorem idleCycles_cycles (n : Nat) (s : State) : (idleCycles n s).cycles = s.cycles + n := by
  induction n generalizing s with
  | zero => rfl
  | succ n ih => rw [idleCycles, ih, endCycle_cycles]; omega

@[simp] theorem resetRegisters_cycles (d : PpuDraw) (s : State) : (resetRegisters d s).cycles = 0 := rfl
@[simp] theorem resetRegisters_inputs (d : PpuDraw) (s : State) :
    (resetRegisters d s).inputs = { s.inputs with resetReq := false } := rfl
@[simp] theorem resetRegisters_ppu_ioLatch (d : PpuDraw) (s : State) :
    (resetRegisters d s).ppu.ioLatch = s.ppu.ioLatch := rfl
@[simp] theorem resetRegisters_ppu_readBuffer (d : PpuDraw) (s : State) :
    (resetRegisters d s).ppu.readBuffer = d.readBuffer := rfl
@[simp] theorem resetRegisters_ppu_vram (d : PpuDraw) (s : State) : (resetRegisters d s).ppu.vram = d.vram := rfl
@[simp] theorem resetRegisters_ppu_pal (d : PpuDraw) (s : State) : (resetRegisters d s).ppu.pal = d.pal := rfl
@[simp] theorem resetRegisters_ppu_oam (d : PpuDraw) (s : State) : (resetRegisters d s).ppu.oam = d.oam := rfl

/-- A read of plain memory returns what it would have in any earlier state with the same RAM and cartridge. -/
theorem memRead_plain_of_same {a : Word} (h : holdsCode a = true) {s t : State} (hram : t.ram = s.ram)
    (hboard : t.board = s.board) :
    memRead a t = .ok (readByte s a) { endCycle t with busLatch := readByte s a } := by
  rw [memRead_plain h, readByte_plain h hram hboard, endCycle_withBusLatch]

/-- The reset sequence always completes: its registers are set, seven cycles pass, and PC and the latch come from the reset
vector. -/
theorem resetSequence_apply (d : PpuDraw) (s : State) :
    resetSequence d s = .ok ()
      { idleCycles 7 (resetRegisters d s) with
        busLatch := readByte s (resetVector + 1#16)
        cpu := { (resetRegisters d s).cpu with
                 pc := cat16 (readByte s (resetVector + 1#16)) (readByte s resetVector) } } := by
  simp only [resetSequence, jumpVector, bind_eq, idle_apply]
  rw [memRead_plain_of_same (s := s) (a := resetVector) (by decide) (by simp) (by simp)]
  dsimp only
  rw [memRead_plain_of_same (s := s) (by decide) (by simp) (by simp), endCycle_withBusLatch]
  simp [idleCycles]

/-- The counters stay in their ranges as they advance by a dot (60_exceptions R601). -/
theorem Ppu.advance_countersOk {p : Ppu} (h : p.countersOk) : p.advance.countersOk := by
  obtain ⟨hline, hdot⟩ := h
  simp only [Ppu.countersOk, Ppu.advance, Ppu.frameEnds]
  by_cases hends : p.lineEnds = true
  · by_cases hframe : p.scanline = 261
    · simp [hends, hframe]
    · have hnext : p.scanline + 1 ≤ 261 := by omega
      simpa [hends, hframe] using hnext
  · have hlast : p.dot ≠ 340 := fun h340 => hends (by simp [Ppu.lineEnds, h340])
    have hnext : p.dot + 1 ≤ 340 := by omega
    simpa [hends] using And.intro hline hnext

theorem tick_countersOk {s : State} (h : s.ppu.countersOk) : (tick s).ppu.countersOk :=
  Ppu.advance_countersOk h

theorem endCycle_countersOk {s : State} (h : s.ppu.countersOk) : (endCycle s).ppu.countersOk :=
  tick_countersOk (tick_countersOk (tick_countersOk h))

/-- The edge check takes in the level the line has (60_exceptions R610). -/
theorem nmiCheck_linePrev (s : State) : (nmiCheck s).nmi.linePrev = (nmiCheck s).ppu.nmiLine := rfl

/-- No dot changes a memory of the PPU. -/
theorem endCycle_memoriesOk {s : State} (h : s.ppu.memoriesOk) : (endCycle s).ppu.memoriesOk := by
  simpa only [Ppu.memoriesOk, endCycle_ppu_vram, endCycle_ppu_pal, endCycle_ppu_oam] using h

theorem endCycle_oamOk {s : State} (h : s.ppu.oamOk) : (endCycle s).ppu.oamOk := by
  simpa only [Ppu.oamOk, endCycle_ppu_oam] using h

/-- The end of a cycle keeps the invariant. -/
theorem endCycle_inv {s : State} (h : s.Inv) : (endCycle s).Inv := by
  obtain ⟨hcounters, hmemories, hoam, hram, hboard, -, hfault⟩ := h
  exact And.intro (endCycle_countersOk hcounters) (And.intro (endCycle_memoriesOk hmemories)
    (And.intro (endCycle_oamOk hoam) (And.intro hram (And.intro hboard (And.intro (nmiCheck_linePrev _) hfault)))))

/-- Cycles without an access keep the invariant. -/
theorem idleCycles_inv (n : Nat) {s : State} (h : s.Inv) : (idleCycles n s).Inv := by
  induction n generalizing s with
  | zero => exact h
  | succ n ih => exact ih (endCycle_inv h)

/-- The CPU registers and the bus latch take no part in the invariant. -/
theorem inv_withCpuAndBusLatch {s : State} (r : Cpu) (b : Byte) (h : s.Inv) : State.Inv { s with cpu := r, busLatch := b } :=
  h

/-- The registers a reset sets meet the invariant, where the draw and the memories that a reset keeps do. -/
theorem resetRegisters_inv {d : PpuDraw} {s : State} (hvram : Memory.wf Config.vramSize d.vram)
    (hpal : Memory.wf Config.palSize d.pal) (hoam : Memory.wf Config.oamSize d.oam)
    (hmask : ∀ c ∈ d.oam, oamMask c.1 c.2 = c.2) (hram : Memory.wf Config.ramSize s.ram) (hboard : s.board.ok)
    (hfault : s.fault = none) : (resetRegisters d s).Inv :=
  And.intro (And.intro (Nat.zero_le _) (Nat.zero_le _)) (And.intro (And.intro hvram (And.intro hpal hoam))
    (And.intro hmask (And.intro hram (And.intro hboard (And.intro rfl hfault)))))

/-! ### Construction (00_scope R22, 70_reset_and_hazards R701) -/

/-- A cartridge of an allowed size and mirroring is built, and its reset sequence runs. -/
theorem construct_of_wf {c : CartImage} (h : c.wf) (mode : OpenBusMode) (d : PowerOn) :
    construct c mode d = outcome (resetSequence d.ppuDraw) (powerOnState (boardOf c mode) d) := by
  obtain ⟨hprg, hchr, hmirroring⟩ := h
  unfold construct
  rw [if_neg (by tauto), if_neg (not_not.mpr hchr)]
  rcases hmirroring with hm | hm <;> rw [hm]

/-- Any other cartridge is refused, by the first check it fails. -/
theorem construct_of_not_wf {c : CartImage} (h : ¬ c.wf) (mode : OpenBusMode) (d : PowerOn) :
    ∃ f, construct c mode d = .refused f := by
  unfold construct
  by_cases hprg : c.prgOk
  · rw [if_neg (by tauto)]
    by_cases hchr : c.chrOk
    · rw [if_neg (not_not.mpr hchr)]
      cases hm : c.mirroring with
      | horizontal => exact absurd ⟨hprg, hchr, .inl hm⟩ h
      | vertical => exact absurd ⟨hprg, hchr, .inr hm⟩ h
      | fourScreen => exact ⟨_, rfl⟩
      | singleScreen => exact ⟨_, rfl⟩
    · exact ⟨_, if_pos hchr⟩
  · exact ⟨_, if_pos (not_or.mp hprg)⟩

/-- `CartImage.wf` in the numbers and names of 00_scope R22. -/
theorem cartImage_wf_iff (c : CartImage) :
    c.wf ↔ (c.prg.length = 16384 ∨ c.prg.length = 32768) ∧ c.chr.length = 8192 ∧
      c.mirroring ≠ .fourScreen ∧ c.mirroring ≠ .singleScreen := by
  have hmirroring : c.mirroringOk ↔ c.mirroring ≠ .fourScreen ∧ c.mirroring ≠ .singleScreen := by
    unfold CartImage.mirroringOk
    cases c.mirroring <;> decide
  exact and_congr Iff.rfl (and_congr Iff.rfl hmirroring)

@[simp] theorem powerOnState_board (b : Board) (d : PowerOn) : (powerOnState b d).board = b := rfl
@[simp] theorem powerOnState_ram (b : Board) (d : PowerOn) :
    (powerOnState b d).ram = Memory.ofList Config.ramSize d.ram := rfl
@[simp] theorem powerOnState_ppu_ioLatch (b : Board) (d : PowerOn) : (powerOnState b d).ppu.ioLatch = d.ioLatch := rfl

@[simp] theorem PowerOn.ppuDraw_readBuffer (d : PowerOn) : d.ppuDraw.readBuffer = d.readBuffer := rfl

theorem PowerOn.ppuDraw_vram_read (d : PowerOn) {i : Nat} (h : i < Config.vramSize) :
    d.ppuDraw.vram.read i = d.vram.getD i 0x00 :=
  Memory.read_ofList _ _ i h

theorem PowerOn.ppuDraw_pal_read (d : PowerOn) {i : Nat} (h : i < Config.palSize) :
    d.ppuDraw.pal.read i = d.pal.getD i 0 :=
  Memory.read_ofList _ _ i h

theorem PowerOn.ppuDraw_oam_read (d : PowerOn) {i : Nat} (h : i < Config.oamSize) :
    d.ppuDraw.oam.read i = oamMask i (d.oam.getD i 0x00) :=
  Memory.read_tabulate _ _ i h

/-- Whatever the cartridge and the draw, the block meets the invariant once its reset registers are set. -/
theorem powerOn_resetRegisters_inv (c : CartImage) (mode : OpenBusMode) (d : PowerOn) :
    (resetRegisters d.ppuDraw (powerOnState (boardOf c mode) d)).Inv := by
  obtain ⟨hvram, hpal, hoam⟩ := ppuDraw_wf d
  exact resetRegisters_inv hvram hpal hoam (fun _ => oamOf_mask fun i => d.oam.getD i 0x00) (Memory.wf_ofList _ _)
    (boardOf_ok c mode) rfl

/-- Settles O10: the checks of `construct` are those of `CartImage.wf`; seven cycles from the reset registers keep the
invariant and the memories of the draw. -/
theorem constructionRefusesOtherCartridges : Obligations.ConstructionRefusesOtherCartridges := by
  intro c mode d
  refine ⟨cartImage_wf_iff c, fun h => construct_of_not_wf h mode d, fun h => ?_⟩
  refine ⟨_, (construct_of_wf h mode d).trans (outcome_ok (resetSequence_apply _ _)),
    inv_withCpuAndBusLatch _ _ (idleCycles_inv 7 (powerOn_resetRegisters_inv c mode d)), ?_⟩
  exact ⟨by simp, by simp, by simp, by simp, by simp, fun i hi => by simpa using d.ppuDraw_vram_read hi,
    fun i hi => by simpa using d.ppuDraw_pal_read hi, fun i hi => by simpa using d.ppuDraw_oam_read hi⟩

/-! ### What no step changes (00_scope R21, 60_exceptions R680) -/

/-- The cartridge, its mirroring, the open-bus mode and the host's inputs are as they were, but for a reset request that
may be consumed. -/
def KeepsSetup (s t : State) : Prop :=
  t.board = s.board ∧ (t.inputs = s.inputs ∨ t.inputs = { s.inputs with resetReq := false })

theorem keepsSetup_of_eq {s t : State} (hboard : t.board = s.board) (hinputs : t.inputs = s.inputs) : KeepsSetup s t :=
  ⟨hboard, .inl hinputs⟩

theorem keepsSetup_frame : Frame KeepsSetup where
  refl _ := keepsSetup_of_eq rfl rfl
  trans := by
    rintro s t u ⟨hboard, hinputs⟩ ⟨hboard', hinputs'⟩
    refine ⟨hboard'.trans hboard, ?_⟩
    rcases hinputs' with h' | h'
    · rwa [h']
    · right
      rcases hinputs with h | h <;> rw [h', h]

/-- A taken reset consumes its request and leaves the other inputs and the cartridge (70_reset_and_hazards R700). -/
theorem takeReset_keepsSetup : Keeps KeepsSetup takeReset := by
  intro s u t h
  rw [takeReset, resetSequence_apply] at h
  cases h
  exact ⟨by simp, .inr (by simp)⟩

theorem keepsSetup_step : StepKeeps KeepsSetup where
  frame := keepsSetup_frame
  read _ _ _ _ h := by
    obtain ⟨-, -, -, -, -, hboard, hinputs, -⟩ := memRead_frame h
    exact keepsSetup_of_eq hboard hinputs
  write _ _ _ _ _ h := by
    obtain ⟨-, -, -, hboard, hinputs, -⟩ := memWrite_frame h
    exact keepsSetup_of_eq hboard hinputs
  cpu _ := Keeps.modifyCpu fun _ => keepsSetup_of_eq rfl rfl
  cycle _ := keepsSetup_of_eq rfl rfl
  clearNmi _ := keepsSetup_of_eq rfl rfl
  startDma _ := keepsSetup_of_eq rfl rfl
  clearPulses _ := keepsSetup_of_eq rfl rfl
  reset := takeReset_keepsSetup

/-- Settles O13: every part of a step keeps the set-up, so every step does. -/
theorem noStepChangesTheCartridge : Obligations.NoStepChangesTheCartridge := by
  intro s t h
  obtain ⟨hboard, hinputs⟩ := step_keeps keepsSetup_step h
  refine ⟨hboard, ?_⟩
  rcases hinputs with hsame | hconsumed
  · simp [hsame]
  · refine ⟨by rw [hconsumed], by rw [hconsumed], fun hnone => ?_⟩
    rw [hconsumed, ← hnone]

end Sys2Proof.Machine
end

section
/-! SUPPORT. The proofs of the state's statements: the invariant at every step (10_state R63, R64, R67), the faults (R68),
the frames of the instructions (R41 to R66), and the state right after reset (R69). -/

namespace Sys2Proof.Machine

/-! ### The invariant -/

/-- A write to the PPU space changes VRAM and the palette alone. -/
theorem ppuSpaceWrite_eq (b : Board) (p : Ppu) (a : Word) (d : Byte) :
    ∃ vram pal, ppuSpaceWrite b p a d = { p with vram := vram, pal := pal } := by
  unfold ppuSpaceWrite
  split
  · exact ⟨_, _, rfl⟩
  · split
    · exact ⟨_, _, rfl⟩
    · exact ⟨_, _, rfl⟩

/-- A PPUSCROLL write changes `t`, `x` and the toggle alone. -/
theorem Ppu.writeScroll_eq (d : Byte) (p : Ppu) :
    ∃ t x w, p.writeScroll d = { p with t := t, x := x, w := w } := by
  unfold Ppu.writeScroll
  split
  · exact ⟨_, _, _, rfl⟩
  · exact ⟨_, _, _, rfl⟩

/-- A PPUADDR write changes `v`, `t` and the toggle alone. -/
theorem Ppu.writeAddr_eq (d : Byte) (p : Ppu) :
    ∃ v t w, p.writeAddr d = { p with v := v, t := t, w := w } := by
  unfold Ppu.writeAddr
  split
  · exact ⟨_, _, _, rfl⟩
  · exact ⟨_, _, _, rfl⟩

/-- What a write puts into a memory is the cell written or was there before. -/
theorem Memory.mem_write {w : Nat} {m : Memory w} {a : Nat} {v : BitVec w} {c : Nat × BitVec w} (h : c ∈ m.write a v) :
    c = (a, v) ∨ c ∈ m := by
  unfold Memory.write at h
  split at h
  · exact .inr (Memory.mem_erase.mp h).1
  · rcases Memory.mem_insert.mp h with h | h
    · exact .inl h
    · exact .inr (Memory.mem_erase.mp h).1

/-- No write to a register moves the sequencer's counters or stores an unimplemented OAM bit (20_memory R124). -/
theorem afterRegWriteRule_counters_oam {s : State} (d : Byte) (r : PpuReg) (h : s.ppu.countersOk ∧ s.ppu.oamOk) :
    (afterRegWriteRule s d r).ppu.countersOk ∧ (afterRegWriteRule s d r).ppu.oamOk := by
  cases r with
  | oamdata =>
    refine ⟨h.1, fun c hc => ?_⟩
    rcases Memory.mem_write hc with rfl | hc
    · exact oamMask_oamMask _ _
    · exact h.2 c hc
  | ppuscroll =>
    obtain ⟨t, x, w, he⟩ := s.ppu.writeScroll_eq d
    simpa only [afterRegWriteRule, he] using h
  | ppuaddr =>
    obtain ⟨v, t, w, he⟩ := s.ppu.writeAddr_eq d
    simpa only [afterRegWriteRule, he] using h
  | ppudata =>
    obtain ⟨vram, pal, he⟩ := ppuSpaceWrite_eq s.board s.ppu s.ppu.dataAddr d
    simpa only [afterRegWriteRule, he] using h
  | _ => exact h

/-- No CPU write moves the sequencer's counters or stores an unimplemented OAM bit. -/
theorem afterWrite_counters_oam {s : State} (a : Word) (d : Byte) (h : s.ppu.countersOk ∧ s.ppu.oamOk) :
    (afterWrite s a d).ppu.countersOk ∧ (afterWrite s a d).ppu.oamOk := by
  unfold afterWrite
  split
  case h_2 r _ => exact afterRegWriteRule_counters_oam d r h
  all_goals exact h

/-- The end of a cycle brings the NMI line's checked level up to date, so the invariant after it needs only that an edge
check would have met it before. -/
theorem endCycle_inv_of_nmiCheck {s : State} (h : (nmiCheck s).Inv) : (endCycle s).Inv :=
  endCycle_inv (s := nmiCheck s) h

/-- A CPU read keeps the invariant, once an edge check has taken in the NMI level. -/
theorem nmiCheck_afterRead_inv {s : State} (a : Word) (h : s.Inv) : (nmiCheck (afterRead s a)).Inv := by
  obtain ⟨hcounters, hmemories, hoam, hram, hboard, -, hfault⟩ := h
  unfold afterRead
  split
  case h_1 r _ => cases r <;> exact ⟨hcounters, hmemories, hoam, hram, hboard, rfl, hfault⟩
  all_goals exact ⟨hcounters, hmemories, hoam, hram, hboard, rfl, hfault⟩

/-- A CPU write keeps the invariant, once an edge check has taken in the NMI level. -/
theorem nmiCheck_afterWrite_inv {s : State} (a : Word) (d : Byte) (h : s.Inv) : (nmiCheck (afterWrite s a d)).Inv := by
  obtain ⟨hcounters, hmemories, hoam, hram, hboard, -, hfault⟩ := h
  obtain ⟨hmemories', hram'⟩ := afterWrite_wf s a d hmemories hram
  obtain ⟨hcounters', hoam'⟩ := afterWrite_counters_oam a d ⟨hcounters, hoam⟩
  exact ⟨hcounters', hmemories', hoam', hram', by simpa using hboard, rfl, by simpa using hfault⟩

/-- The invariant survives from one state to the next. -/
def KeepsInv (s t : State) : Prop := s.Inv → t.Inv

theorem keepsInv_frame : Frame KeepsInv where
  refl _ := id
  trans h h' := h' ∘ h

theorem memRead_keepsInv (a : Word) : Keeps KeepsInv (memRead a) := by
  intro s b t h hinv
  obtain ⟨-, -, rfl⟩ := memRead_eq_ok h
  exact endCycle_inv_of_nmiCheck (nmiCheck_afterRead_inv a hinv)

theorem memWrite_keepsInv (a : Word) (d : Byte) : Keeps KeepsInv (memWrite a d) := by
  intro s u t h hinv
  obtain ⟨-, rfl⟩ := memWrite_eq_ok h
  exact endCycle_inv_of_nmiCheck (nmiCheck_afterWrite_inv a d hinv)

/-- No draw a reset takes has an unimplemented OAM bit (log entry 16). -/
theorem resetDraw_oamMask (n : Nat) : ∀ c ∈ (resetDraw n).oam, oamMask c.1 c.2 = c.2 := by
  unfold resetDraw
  exact fun c hc => oamOf_mask (Config.resetOam n) hc

/-- A taken reset draws its memories in canonical form, and keeps RAM and the cartridge. -/
theorem takeReset_keepsInv : Keeps KeepsInv takeReset := by
  rintro s u t h ⟨-, -, -, hram, hboard, -, hfault⟩
  rw [takeReset, resetSequence_apply] at h
  cases h
  obtain ⟨hvram, hpal, hoam⟩ := resetDraw_wf s.draws
  exact inv_withCpuAndBusLatch _ _ (idleCycles_inv 7
    (resetRegisters_inv hvram hpal hoam (resetDraw_oamMask s.draws) hram hboard hfault))

theorem keepsInv_step : StepKeeps KeepsInv where
  frame := keepsInv_frame
  read := memRead_keepsInv
  write := memWrite_keepsInv
  cpu _ := Keeps.modifyCpu fun _ => id
  cycle _ := endCycle_inv
  clearNmi _ := id
  startDma _ := id
  clearPulses _ := id
  reset := takeReset_keepsInv

/-- Settles O12: every part of a step keeps the invariant, so every step does. -/
theorem stepKeepsTheInvariant : Obligations.StepKeepsTheInvariant :=
  fun _ _ hinv hstep => step_keeps keepsInv_step hstep hinv

/-! ### Faults -/

section
variable {P : FaultRecord → State → Prop}

/-- An outcome that is a fault comes from work that raises its record. -/
theorem outcome_eq_fault {m : M Unit} {s : State} {f : Fault} (h : outcome m s = .fault f) :
    ∃ r t, m s = .error r t ∧ f = r.toFault t := by
  unfold outcome at h
  cases hm : m s with
  | ok u t => rw [hm] at h; cases h
  | error r t => rw [hm] at h; cases h; exact ⟨r, t, rfl, rfl⟩

/-- Every fault a bus access raises satisfies `P`, and so does IllegalOpcode (30_encoding R220). -/
structure StepRaises (P : FaultRecord → State → Prop) : Prop extends BusRaises P where
  illegal : ∀ (op : Byte) (a : Word) (s : State),
    P (.illegalOpcode op a) { s with fault := some (.illegalOpcode op a) }

theorem Raises.fetchInstr (hP : StepRaises P) : Raises P fetchInstr := by
  refine Raises.bind Raises.getCpu fun q => Raises.bind (Raises.fetch hP.toBusRaises) fun op => ?_
  split
  · intro s r t h; cases h; exact hP.illegal _ _ _
  · exact Raises.fetchOperands hP.toBusRaises _

/-- What every fault of a fetch, an instruction and its DMA satisfies. -/
theorem runInstr_raises (hP : StepRaises P) {s : State} {f : Fault} (h : runInstr s = .fault f) :
    ∃ r t, f = r.toFault t ∧ P r t := by
  unfold runInstr at h
  split at h
  · next r t hf => cases h; exact ⟨r, t, rfl, Raises.fetchInstr hP _ _ _ hf⟩
  · split at h
    · obtain ⟨r, t, hr, he⟩ := outcome_eq_fault h
      exact ⟨r, t, he, Raises.runRequestedDma hP.toBusRaises _ _ _ hr⟩
    · next g he => cases h; exact exec_raises hP.toBusRaises he
    · cases h

/-- What every fault of an interrupt entry or an instruction satisfies. -/
theorem runBoundary_raises (hP : StepRaises P) {s : State} {f : Fault} (h : runBoundary s = .fault f) :
    ∃ r t, f = r.toFault t ∧ P r t := by
  unfold runBoundary at h
  split at h
  · next r t hi => cases h; exact ⟨r, t, rfl, Raises.interruptDue hP.toBusRaises _ _ _ hi⟩
  · cases h
  · exact runInstr_raises hP h

end

theorem runBoundary_not_refused (s : State) (f : Refusal) : runBoundary s ≠ .refused f := by
  intro h
  unfold runBoundary at h
  split at h
  · cases h
  · cases h
  · unfold runInstr at h
    split at h
    · cases h
    · split at h
      · exact outcome_not_refused _ _ _ h
      · cases h
      · next he => exact exec_not_refused _ _ _ he

/-- While a fault is set a step answers it again (10_state R68). -/
theorem step_faulted {s : State} {r : FaultRecord} (h : s.fault = some r) : step s = .fault (r.toFault s) := by
  unfold step controlStep
  rw [h]

/-- With no fault set, a step takes a reset request before anything else (60_exceptions R680). -/
theorem step_reset {s : State} (h1 : s.fault = none) (h2 : s.inputs.resetReq = true) :
    step s = outcome takeReset { s with framePulses := [] } := by
  unfold step controlStep
  rw [h1]
  exact if_pos h2

/-- A taken reset always completes. -/
theorem takeReset_completes (s : State) : ∃ t, takeReset s = .ok () t := ⟨_, resetSequence_apply _ _⟩

/-- What a step is: the fault again, a reset that completes, or the boundary's work. -/
theorem step_cases (s : State) :
    (∃ r, s.fault = some r ∧ step s = .fault (r.toFault s)) ∨
    (s.fault = none ∧ s.inputs.resetReq = true ∧
      ∃ t, takeReset { s with framePulses := [] } = .ok () t ∧ step s = .next t) ∨
    (s.fault = none ∧ s.inputs.resetReq = false ∧ step s = runBoundary { s with framePulses := [] }) := by
  rcases Option.eq_none_or_eq_some s.fault with hfault | ⟨r, hfault⟩
  · rcases Bool.eq_false_or_eq_true s.inputs.resetReq with hreq | hreq
    · obtain ⟨t, ht⟩ := takeReset_completes { s with framePulses := [] }
      exact .inr (.inl ⟨hfault, hreq, t, ht, (step_reset hfault hreq).trans (outcome_ok ht)⟩)
    · exact .inr (.inr ⟨hfault, hreq, step_boundary hfault hreq⟩)
  · exact .inl ⟨r, hfault, step_faulted hfault⟩

/-- No step refuses. -/
theorem step_not_refused (s : State) (f : Refusal) : step s ≠ .refused f := by
  rcases step_cases s with ⟨r, -, h⟩ | ⟨-, -, t, -, h⟩ | ⟨-, -, h⟩
  · rw [h]; nofun
  · rw [h]; nofun
  · rw [h]; exact runBoundary_not_refused _ f

/-- The field `fault` of the state at the raise holds the record. -/
def Recorded (r : FaultRecord) (t : State) : Prop := t.fault = some r

/-- A bus access that faults records its fault (60_exceptions R651), and so does the fetch of an illegal opcode. -/
theorem recorded_step : StepRaises Recorded where
  read a s r t h := by
    cases hf : readFault s a with
    | none => rw [memRead_ok hf] at h; cases h
    | some q => rw [memRead_fault hf] at h; cases h; rfl
  write a d s r t h := by
    cases hf : writeFault s a with
    | none => rw [memWrite_ok hf] at h; cases h
    | some q => rw [memWrite_fault hf] at h; cases h; rfl
  illegal _ _ _ := rfl

/-- A step's fault is recorded in the state it carries. -/
theorem step_fault_recorded {s : State} {f : Fault} (h : step s = .fault f) :
    ∃ (r : FaultRecord) (t : State), t.fault = some r ∧ f = r.toFault t := by
  rcases step_cases s with ⟨r, hr, he⟩ | ⟨-, -, t, -, he⟩ | ⟨-, -, he⟩
  · rw [he] at h; cases h; exact ⟨r, s, hr, rfl⟩
  · rw [he] at h; cases h
  · rw [he] at h
    obtain ⟨r, t, hf, hr⟩ := runBoundary_raises recorded_step h
    exact ⟨r, t, hr, hf⟩

/-- No reset request is accepted while a fault is set (10_state R68). -/
theorem requestReset_faulted {s : State} {r : FaultRecord} (h : s.fault = some r) : s.requestReset = s := by
  unfold State.requestReset
  rw [h]

/-- Settles O6: every raise sets the field `fault`, and a step looks at it before anything else. -/
theorem faultsAreRecordedAndFinal : Obligations.FaultsAreRecordedAndFinal :=
  ⟨rfl, fun s => ⟨step_not_refused s, fun _ => step_fault_recorded,
    fun _ hr => ⟨step_faulted hr, requestReset_faulted hr⟩⟩⟩

/-! ### What an instruction writes of the CPU registers -/

/-- The register updates an instruction's sequence is made of, by its class (30_encoding R203, R214) and, where it has a
sequence of its own, by its mnemonic (41_stack, 44_control). -/
inductive RegisterWrite (i : Instr) : (Cpu → Cpu) → Prop
  | read (m : Byte) (hclass : opClass i = .read) : RegisterWrite i (readEffect i m)
  | rmw (m : Byte) (hclass : opClass i = .rmw) : RegisterWrite i fun q => { q with p := (rmwEffect i q.p m).2 }
  | acc (hclass : opClass i = .acc) :
      RegisterWrite i fun q => { q with a := (rmwEffect i q.p q.a).1, p := (rmwEffect i q.p q.a).2 }
  | implied (hclass : opClass i = .implied) : RegisterWrite i (impliedEffect i)
  | jump (pc : Word) : RegisterWrite i fun q => { q with pc := pc }
  | push (hname : mnemonic i ∈ ["PHA", "PHP", "JSR", "BRK"]) : RegisterWrite i fun q => { q with s := q.s - 1#8 }
  | pull (hname : mnemonic i ∈ ["PLA", "PLP", "RTS", "RTI"]) : RegisterWrite i fun q => { q with s := q.s + 1#8 }
  | pullA (b : Byte) (hname : mnemonic i = "PLA") : RegisterWrite i (Cpu.loadA b)
  | pullP (b : Byte) (hname : mnemonic i ∈ ["PLP", "RTI"]) : RegisterWrite i fun q => { q with p := pulledFlags b }
  | disableIrq (hname : mnemonic i = "BRK") : RegisterWrite i fun q => { q with p := { q.p with i := true } }

section
variable {R : State → State → Prop}

theorem push_keeps (hR : BusKeeps R) (hs : Keeps R (modifyCpu fun q => { q with s := q.s - 1#8 })) (v : Byte) :
    Keeps R (push v) :=
  Keeps.bind hR.frame (Keeps.getCpu hR.frame) fun _ => Keeps.bind hR.frame (hR.write _ _) fun _ => hs

theorem pull_keeps (hR : ReadKeeps R) (hs : Keeps R (modifyCpu fun q => { q with s := q.s + 1#8 })) :
    Keeps R pull :=
  Keeps.bind hR.frame hs fun _ => Keeps.bind hR.frame (Keeps.getCpu hR.frame) fun _ => hR.read _

/-- What every bus access keeps and every register update of an instruction keeps, the instruction keeps. -/
theorem exec_keeps_of_registerWrite (hR : BusKeeps R) {i : Instr} {s t : State}
    (hcpu : ∀ f, RegisterWrite i f → Keeps R (modifyCpu f)) (h : exec i s = .next t) : R s t := by
  have F := hR.frame
  have A := hR.toReadKeeps
  have key : ∀ {m : M Unit}, Keeps R m → outcome m s = .next t → R s t :=
    fun hm ho => hm _ _ _ (outcome_eq_next ho)
  have hpc : ∀ a, Keeps R (setPc a) := fun a => hcpu _ (.jump a)
  have hpush := fun hname => push_keeps hR (hcpu _ (.push hname))
  have hpull := fun hname => pull_keeps A (hcpu _ (.pull hname))
  cases hclass : opClass i with
  | read => rw [exec_read i s hclass] at h; exact key (Keeps.readClass A fun m => hcpu _ (.read m hclass)) h
  | write => rw [exec_write i s hclass] at h; exact key (Keeps.writeClass hR _ (Keeps.storeAddr A i)) h
  | rmw =>
    rw [exec_rmw i s hclass] at h
    exact key (Keeps.rmwClass hR (Keeps.storeAddr A i) fun m => hcpu _ (.rmw m hclass)) h
  | acc => rw [exec_acc i s hclass] at h; exact key (Keeps.implied A (hcpu _ (.acc hclass))) h
  | implied => rw [exec_implied i s hclass] at h; exact key (Keeps.implied A (hcpu _ (.implied hclass))) h
  | branch =>
    obtain ⟨off, he, -, -⟩ := exec_branch i s hclass
    rw [he] at h
    exact key (Keeps.branch A hpc _ _) h
  | stack =>
    cases i <;> try (cases hclass; done)
    case pha | php =>
      exact key (Keeps.bind F (Keeps.dummyPc A) fun _ => Keeps.bind F (Keeps.getCpu F) fun _ => hpush (by decide) _) h
    case pla =>
      exact key (Keeps.bind F (Keeps.dummyPc A) fun _ => Keeps.bind F (Keeps.dummyStack A) fun _ =>
        Keeps.bind F (hpull (by decide)) fun b => hcpu _ (.pullA b rfl)) h
    case plp =>
      exact key (Keeps.bind F (Keeps.dummyPc A) fun _ => Keeps.bind F (Keeps.dummyStack A) fun _ =>
        Keeps.bind F (hpull (by decide)) fun b => hcpu _ (.pullP b (by decide))) h
  | control =>
    cases i <;> try (cases hclass; done)
    case jmpAbs => exact key (hpc _) h
    case jmpInd => exact key (Keeps.bind F (A.read _) fun _ => Keeps.bind F (A.read _) fun _ => hpc _) h
    case jsr =>
      have hp := hpush (by simp [mnemonic])
      exact key (Keeps.bind F (Keeps.dummyStack A) fun _ => Keeps.bind F (Keeps.getCpu F) fun _ =>
        Keeps.bind F (hp _) fun _ => Keeps.bind F (hp _) fun _ => Keeps.bind F (A.read _) fun _ => hpc _) h
    case rts =>
      have hp := hpull (by decide)
      exact key (Keeps.bind F (Keeps.dummyPc A) fun _ => Keeps.bind F (Keeps.dummyStack A) fun _ =>
        Keeps.bind F hp fun _ => Keeps.bind F hp fun _ => Keeps.bind F (Keeps.dummy (A.read _)) fun _ => hpc _) h
    case brk =>
      have hp := hpush (by simp [mnemonic])
      exact key (Keeps.bind F (Keeps.getCpu F) fun _ => Keeps.bind F (hp _) fun _ => Keeps.bind F (hp _) fun _ =>
        Keeps.bind F (hp _) fun _ => Keeps.bind F (hcpu _ (.disableIrq rfl)) fun _ =>
          Keeps.bind F (A.read _) fun _ => Keeps.bind F (A.read _) fun _ => hpc _) h
    case rti =>
      have hp := hpull (by decide)
      exact key (Keeps.bind F (Keeps.dummyPc A) fun _ => Keeps.bind F (Keeps.dummyStack A) fun _ =>
        Keeps.bind F hp fun b => Keeps.bind F (hcpu _ (.pullP b (by decide))) fun _ =>
          Keeps.bind F hp fun _ => Keeps.bind F hp fun _ => hpc _) h

end

/-- A relation of the CPU registers that holds of no change and composes holds across an instruction when it holds across
each of its register updates: a bus access leaves the registers alone. -/
theorem exec_cpu_rel {Q : Cpu → Cpu → Prop} (hrefl : ∀ q, Q q q) (htrans : ∀ {q r u}, Q q r → Q r u → Q q u)
    {i : Instr} (hQ : ∀ f, RegisterWrite i f → ∀ q, Q q (f q)) {s t : State} (h : exec i s = .next t) :
    Q s.cpu t.cpu := by
  have hbus : BusKeeps fun s t => Q s.cpu t.cpu :=
    { frame := { refl := fun _ => hrefl _, trans := htrans }
      read := fun _ s b t h => by
        obtain ⟨-, hcpu, -⟩ := memRead_frame h
        rw [hcpu]; exact hrefl _
      write := fun _ _ s u t h => by
        obtain ⟨hcpu, -⟩ := memWrite_frame h
        rw [hcpu]; exact hrefl _ }
  exact exec_keeps_of_registerWrite hbus (fun f hf => Keeps.modifyCpu fun s => hQ f hf s.cpu) h

/-- The operations of the read class, by mnemonic (30_encoding R214). -/
theorem readEffect_cases {i : Instr} (h : opClass i = .read) :
    (mnemonic i = "LDA" ∧ readEffect i = Cpu.loadA) ∨ (mnemonic i = "LDX" ∧ readEffect i = Cpu.loadX) ∨
    (mnemonic i = "LDY" ∧ readEffect i = Cpu.loadY) ∨ (mnemonic i = "ADC" ∧ readEffect i = Cpu.adc) ∨
    (mnemonic i = "SBC" ∧ readEffect i = Cpu.sbc) ∨ (mnemonic i = "AND" ∧ readEffect i = Cpu.and) ∨
    (mnemonic i = "ORA" ∧ readEffect i = Cpu.ora) ∨ (mnemonic i = "EOR" ∧ readEffect i = Cpu.eor) ∨
    (mnemonic i = "BIT" ∧ readEffect i = Cpu.bit) ∨ (mnemonic i = "CMP" ∧ readEffect i = Cpu.cmp) ∨
    (mnemonic i = "CPX" ∧ readEffect i = Cpu.cpx) ∨ (mnemonic i = "CPY" ∧ readEffect i = Cpu.cpy) := by
  cases i <;> first | (cases h; done) | simp [mnemonic, readEffect]

/-- The functions of the read-modify-write class and the accumulator mode, by mnemonic (30_encoding R214). -/
theorem rmwEffect_cases {i : Instr} (h : opClass i = .rmw ∨ opClass i = .acc) :
    (mnemonic i = "INC" ∧ rmwEffect i = incFun) ∨ (mnemonic i = "DEC" ∧ rmwEffect i = decFun) ∨
    (mnemonic i = "ASL" ∧ rmwEffect i = aslFun) ∨ (mnemonic i = "LSR" ∧ rmwEffect i = lsrFun) ∨
    (mnemonic i = "ROL" ∧ rmwEffect i = rolFun) ∨ (mnemonic i = "ROR" ∧ rmwEffect i = rorFun) := by
  cases i <;> first | (rcases h with h | h <;> cases h; done) | simp [mnemonic, rmwEffect]

/-- A, X, Y and S are changed only by the instructions of 10_state R41 to R44. -/
def RegistersFrame (i : Instr) (q r : Cpu) : Prop :=
  (mnemonic i ∉ ["LDA", "PLA", "TXA", "TYA", "ADC", "SBC", "AND", "ORA", "EOR"] → opClass i ≠ .acc → r.a = q.a) ∧
  (mnemonic i ∉ ["LDX", "TAX", "TSX", "INX", "DEX"] → r.x = q.x) ∧
  (mnemonic i ∉ ["LDY", "TAY", "INY", "DEY"] → r.y = q.y) ∧
  (mnemonic i ∉ ["TXS", "PHA", "PHP", "JSR", "BRK", "PLA", "PLP", "RTS", "RTI"] → r.s = q.s)

theorem RegistersFrame.refl (i : Instr) (q : Cpu) : RegistersFrame i q q :=
  ⟨fun _ _ => rfl, fun _ => rfl, fun _ => rfl, fun _ => rfl⟩

theorem RegistersFrame.trans {i : Instr} {q r u : Cpu} :
    RegistersFrame i q r → RegistersFrame i r u → RegistersFrame i q u := by
  rintro ⟨ha, hx, hy, hs⟩ ⟨ha', hx', hy', hs'⟩
  exact ⟨fun h h' => (ha' h h').trans (ha h h'), fun h => (hx' h).trans (hx h), fun h => (hy' h).trans (hy h),
    fun h => (hs' h).trans (hs h)⟩

theorem readEffect_registersFrame {i : Instr} (hclass : opClass i = .read) (m : Byte) (q : Cpu) :
    RegistersFrame i q (readEffect i m q) := by
  rcases readEffect_cases hclass with ⟨hname, he⟩ | ⟨hname, he⟩ | ⟨hname, he⟩ | ⟨hname, he⟩ | ⟨hname, he⟩ | ⟨hname, he⟩ |
    ⟨hname, he⟩ | ⟨hname, he⟩ | ⟨hname, he⟩ | ⟨hname, he⟩ | ⟨hname, he⟩ | ⟨hname, he⟩ <;>
  simp [RegistersFrame, hname, he, Cpu.loadA, Cpu.loadX, Cpu.loadY, Cpu.adc, Cpu.sbc, Cpu.and, Cpu.ora, Cpu.eor, Cpu.bit,
    Cpu.cmp, Cpu.cpx, Cpu.cpy]

theorem impliedEffect_registersFrame (i : Instr) (q : Cpu) : RegistersFrame i q (impliedEffect i q) := by
  unfold impliedEffect
  split <;> simp [RegistersFrame, mnemonic, Cpu.loadA, Cpu.loadX, Cpu.loadY]

theorem RegisterWrite.registersFrame {i : Instr} {f : Cpu → Cpu} (h : RegisterWrite i f) (q : Cpu) :
    RegistersFrame i q (f q) := by
  cases h with
  | read m hclass => exact readEffect_registersFrame hclass m q
  | implied hclass => exact impliedEffect_registersFrame i q
  | acc hclass => exact ⟨fun _ h => absurd hclass h, fun _ => rfl, fun _ => rfl, fun _ => rfl⟩
  | push hname | pull hname =>
    refine ⟨fun _ _ => rfl, fun _ => rfl, fun _ => rfl, fun h => absurd ?_ h⟩
    simp only [List.mem_cons, List.not_mem_nil, or_false] at hname ⊢
    tauto
  | pullA b hname => simp [RegistersFrame, hname, Cpu.loadA]
  | _ => exact ⟨fun _ _ => rfl, fun _ => rfl, fun _ => rfl, fun _ => rfl⟩

/-- Settles O18: each register update of an instruction keeps the registers its rule does not name. -/
theorem registersAreWrittenOnlyByTheirInstructions : Obligations.RegistersAreWrittenOnlyByTheirInstructions :=
  fun i _ _ h => exec_cpu_rel (RegistersFrame.refl i) RegistersFrame.trans (fun _ hf => hf.registersFrame) h

/-- The flags are changed only by the instructions of 10_state R47 to R52. -/
def FlagsFrame (i : Instr) (q r : Cpu) : Prop :=
  (mnemonic i ∉ ["ADC", "SBC", "CMP", "CPX", "CPY", "ASL", "LSR", "ROL", "ROR", "CLC", "SEC", "PLP", "RTI"] →
    r.p.c = q.p.c) ∧
  (mnemonic i ∉ ["LDA", "LDX", "LDY", "TAX", "TAY", "TXA", "TYA", "TSX", "PLA", "ADC", "SBC", "AND", "ORA", "EOR",
      "CMP", "CPX", "CPY", "INC", "INX", "INY", "DEC", "DEX", "DEY", "ASL", "LSR", "ROL", "ROR", "BIT", "PLP", "RTI"] →
    r.p.z = q.p.z ∧ r.p.n = q.p.n) ∧
  (mnemonic i ∉ ["SEI", "CLI", "BRK", "PLP", "RTI"] → r.p.i = q.p.i) ∧
  (mnemonic i ∉ ["SED", "CLD", "PLP", "RTI"] → r.p.d = q.p.d) ∧
  (mnemonic i ∉ ["ADC", "SBC", "BIT", "CLV", "PLP", "RTI"] → r.p.v = q.p.v)

theorem FlagsFrame.of_eq (i : Instr) {q r : Cpu} (h : r.p = q.p) : FlagsFrame i q r := by
  simp [FlagsFrame, h]

theorem FlagsFrame.trans {i : Instr} {q r u : Cpu} : FlagsFrame i q r → FlagsFrame i r u → FlagsFrame i q u := by
  rintro ⟨hc, hzn, hi, hd, hv⟩ ⟨hc', hzn', hi', hd', hv'⟩
  exact ⟨fun h => (hc' h).trans (hc h), fun h => ⟨(hzn' h).1.trans (hzn h).1, (hzn' h).2.trans (hzn h).2⟩,
    fun h => (hi' h).trans (hi h), fun h => (hd' h).trans (hd h), fun h => (hv' h).trans (hv h)⟩

theorem readEffect_flagsFrame {i : Instr} (hclass : opClass i = .read) (m : Byte) (q : Cpu) :
    FlagsFrame i q (readEffect i m q) := by
  rcases readEffect_cases hclass with ⟨hname, he⟩ | ⟨hname, he⟩ | ⟨hname, he⟩ | ⟨hname, he⟩ | ⟨hname, he⟩ | ⟨hname, he⟩ |
    ⟨hname, he⟩ | ⟨hname, he⟩ | ⟨hname, he⟩ | ⟨hname, he⟩ | ⟨hname, he⟩ | ⟨hname, he⟩ <;>
  simp [FlagsFrame, hname, he, Cpu.loadA, Cpu.loadX, Cpu.loadY, Cpu.adc, Cpu.sbc, Cpu.and, Cpu.ora, Cpu.eor, Cpu.bit,
    Cpu.cmp, Cpu.cpx, Cpu.cpy, compareFlags, setNZ]

theorem rmwEffect_flagsFrame {i : Instr} (hclass : opClass i = .rmw ∨ opClass i = .acc) (m : Byte) {q r : Cpu}
    (h : r.p = (rmwEffect i q.p m).2) : FlagsFrame i q r := by
  rcases rmwEffect_cases hclass with ⟨hname, he⟩ | ⟨hname, he⟩ | ⟨hname, he⟩ | ⟨hname, he⟩ | ⟨hname, he⟩ |
    ⟨hname, he⟩ <;>
  simp [FlagsFrame, h, hname, he, incFun, decFun, aslFun, lsrFun, rolFun, rorFun, setNZ]

theorem impliedEffect_flagsFrame (i : Instr) (q : Cpu) : FlagsFrame i q (impliedEffect i q) := by
  unfold impliedEffect
  split <;> simp [FlagsFrame, mnemonic, Cpu.loadA, Cpu.loadX, Cpu.loadY, setNZ]

theorem RegisterWrite.flagsFrame {i : Instr} {f : Cpu → Cpu} (h : RegisterWrite i f) (q : Cpu) :
    FlagsFrame i q (f q) := by
  cases h with
  | read m hclass => exact readEffect_flagsFrame hclass m q
  | rmw m hclass => exact rmwEffect_flagsFrame (.inl hclass) m rfl
  | acc hclass => exact rmwEffect_flagsFrame (.inr hclass) q.a rfl
  | implied hclass => exact impliedEffect_flagsFrame i q
  | pullA b hname => simp [FlagsFrame, hname, Cpu.loadA, setNZ]
  | pullP b hname =>
    have hlist : mnemonic i = "PLP" ∨ mnemonic i = "RTI" := by simpa using hname
    rcases hlist with hi | hi <;> simp [FlagsFrame, hi]
  | disableIrq hname => simp [FlagsFrame, hname]
  | jump | push | pull => exact FlagsFrame.of_eq i rfl

/-- Settles O19: each register update of an instruction keeps the flags whose rules do not name it. -/
theorem flagsAreWrittenOnlyByTheirInstructions : Obligations.FlagsAreWrittenOnlyByTheirInstructions :=
  fun i _ _ h => exec_cpu_rel (fun _ => FlagsFrame.of_eq i rfl) FlagsFrame.trans (fun _ hf => hf.flagsFrame) h

/-! ### What stores and pushes leave alone -/

/-- The pushing instructions (41_stack R320, R321; 44_control R372, R382). -/
theorem pushing_cases {i : Instr} (h : mnemonic i ∈ ["PHA", "PHP", "JSR", "BRK"]) :
    i = .pha ∨ i = .php ∨ (∃ lo8 hi8, i = .jsr lo8 hi8) ∨ ∃ padding, i = .brk padding := by
  cases i <;> simp [mnemonic] at h ⊢

section
variable {R : State → State → Prop}

/-- What every read, every change of the CPU registers and every push keeps, every instruction outside the write and
read-modify-write classes keeps. -/
theorem exec_keeps_of_push (hR : ReadWorkKeeps R) (hpush : ∀ v, Keeps R (push v)) {i : Instr} {s t : State}
    (h : exec i s = .next t) (hw : opClass i ≠ .write) (hm : opClass i ≠ .rmw) : R s t := by
  have F := hR.frame
  have A := hR.toReadKeeps
  by_cases hp : mnemonic i ∈ ["PHA", "PHP", "JSR", "BRK"]
  · have key : ∀ {m : M Unit}, Keeps R m → outcome m s = .next t → R s t :=
      fun hm ho => hm _ _ _ (outcome_eq_next ho)
    have hpushA : ∀ v : Cpu → Byte, Keeps R (do dummyPc; let r ← getCpu; push (v r)) := fun v =>
      Keeps.bind F (Keeps.dummyPc A) fun _ => Keeps.bind F (Keeps.getCpu F) fun _ => hpush _
    rcases pushing_cases hp with rfl | rfl | ⟨lo8, hi8, rfl⟩ | ⟨padding, rfl⟩
    · exact key (hpushA Cpu.a) h
    · exact key (hpushA fun r => pImage r.p true) h
    · exact key (Keeps.bind F (Keeps.dummyStack A) fun _ => Keeps.bind F (Keeps.getCpu F) fun _ =>
        Keeps.bind F (hpush _) fun _ => Keeps.bind F (hpush _) fun _ => Keeps.bind F (A.read _) fun _ => hR.cpu _) h
    · exact key (Keeps.bind F (Keeps.getCpu F) fun _ => Keeps.bind F (hpush _) fun _ => Keeps.bind F (hpush _) fun _ =>
        Keeps.bind F (hpush _) fun _ => Keeps.bind F (hR.cpu _) fun _ => Keeps.jumpVector hR _) h
  · exact exec_keeps_read hR h hw hm hp

end

/-- The registers only a CPU write changes are as they were (10_state R56, R57, R60, R65, R66). -/
def KeepsControl (s t : State) : Prop :=
  t.ppu.ctrl = s.ppu.ctrl ∧ t.ppu.mask = s.ppu.mask ∧ t.ppu.t = s.ppu.t ∧ t.ppu.x = s.ppu.x ∧
    t.dmaRequest = s.dmaRequest ∧ t.pad.strobe = s.pad.strobe

theorem KeepsControl.refl (s : State) : KeepsControl s s := ⟨rfl, rfl, rfl, rfl, rfl, rfl⟩

theorem KeepsControl.trans {s t u : State} : KeepsControl s t → KeepsControl t u → KeepsControl s u := by
  rintro ⟨hctrl, hmask, ht, hx, hdma, hstrobe⟩ ⟨hctrl', hmask', ht', hx', hdma', hstrobe'⟩
  exact ⟨hctrl'.trans hctrl, hmask'.trans hmask, ht'.trans ht, hx'.trans hx, hdma'.trans hdma, hstrobe'.trans hstrobe⟩

/-- No dot changes a control register. -/
theorem endCycle_keepsControl (s : State) : KeepsControl s (endCycle s) := by simp [KeepsControl]

/-- No side effect of a read changes a control register (20_memory R113). -/
theorem afterRead_keepsControl (s : State) (a : Word) : KeepsControl s (afterRead s a) := by
  unfold afterRead
  split
  case h_1 r _ => cases r <;> exact KeepsControl.refl s
  case h_2 => refine ⟨rfl, rfl, rfl, rfl, rfl, ?_⟩; unfold padAfterRead; split <;> rfl
  all_goals exact KeepsControl.refl s

theorem keepsControl_readWork : ReadWorkKeeps KeepsControl where
  frame := { refl := KeepsControl.refl, trans := KeepsControl.trans }
  read a s b t h := by
    obtain ⟨-, -, rfl⟩ := memRead_eq_ok h
    exact (afterRead_keepsControl s a).trans (endCycle_keepsControl { afterRead s a with busLatch := readByte s a })
  cpu _ := Keeps.modifyCpu fun s => KeepsControl.refl s

/-- A push writes RAM, and no control register. -/
theorem push_keepsControl (v : Byte) : Keeps KeepsControl (push v) := by
  intro s u t h
  rw [push_apply] at h
  cases h
  exact endCycle_keepsControl { s with ram := s.ram.write (stackCell s.cpu.s) v, busLatch := v }

/-- Settles O22: no read, no push and no change of the CPU registers changes a control register. -/
theorem controlRegistersChangeOnlyByStores : Obligations.ControlRegistersChangeOnlyByStores :=
  fun _ _ _ h hw hm => exec_keeps_of_push keepsControl_readWork push_keepsControl h hw hm

/-- Every cell of every memory is as it was. -/
def KeepsCells (s t : State) : Prop := ∀ l, t.cell l = s.cell l

/-- No read and no change of the CPU registers changes a cell. -/
theorem keepsCells_readWork : ReadWorkKeeps KeepsCells where
  frame := { refl := fun _ _ => rfl, trans := fun h h' l => (h' l).trans (h l) }
  read a s b t h := by
    obtain ⟨-, -, -, -, -, -, -, -, -, hcells, -⟩ := memRead_frame h
    exact hcells
  cpu _ := Keeps.modifyCpu fun _ l => by cases l <;> rfl

/-- A push changes S, and no cell but the one S names. -/
theorem push_frame {v : Byte} {s t : State} {u : Unit} (h : push v s = .ok u t) :
    t.cpu.s = s.cpu.s - 1#8 ∧ ∀ l, l ≠ .ram (stackCell s.cpu.s) → t.cell l = s.cell l := by
  rw [push_apply] at h
  cases h
  refine ⟨by simp, fun l hl => ?_⟩
  cases l with
  | ram k => simpa [State.cell] using Memory.read_write_other _ _ fun hk => hl (by rw [hk])
  | _ => simp [State.cell]

/-- S and every cell are as they were. -/
def KeepsStack (s t : State) : Prop := t.cpu.s = s.cpu.s ∧ KeepsCells s t

theorem keepsStack_read : ReadKeeps KeepsStack where
  frame := { refl := fun _ => ⟨rfl, fun _ => rfl⟩
             trans := fun ⟨hs, hcells⟩ ⟨hs', hcells'⟩ => ⟨hs'.trans hs, fun l => (hcells' l).trans (hcells l)⟩ }
  read a s b t h := by
    obtain ⟨-, hcpu, -⟩ := memRead_frame h
    exact ⟨by rw [hcpu], keepsCells_readWork.read a s b t h⟩

/-- The cell `l` is none of the `n` that pushes from S = `q` go to. -/
def OffStack : Nat → Byte → Loc → Prop
  | 0, _, _ => True
  | n + 1, q, l => l ≠ .ram (stackCell q) ∧ OffStack n (q - 1#8) l

section
variable {α β : Type} {n : Nat}

/-- The work changes no cell but the `n` that pushes from S go to. -/
def StoresPushed (n : Nat) (m : M α) : Prop := ∀ s a t, m s = .ok a t → ∀ l, OffStack n s.cpu.s l → t.cell l = s.cell l

theorem StoresPushed.none {m : M α} (h : Keeps KeepsCells m) : StoresPushed 0 m := fun _ _ _ hm l _ => h _ _ _ hm l

theorem StoresPushed.push (v : Byte) : StoresPushed 1 (push v) := fun _ _ _ h l hl => (push_frame h).2 l hl.1

theorem StoresPushed.push_bind (v : Byte) {f : Unit → M β} (hf : ∀ u, StoresPushed n (f u)) :
    StoresPushed (n + 1) (Machine.push v >>= f) := by
  rintro s b t h l ⟨hcell, hoff⟩
  obtain ⟨u, s1, h1, h2⟩ := bind_eq_ok h
  obtain ⟨hs, hcells⟩ := push_frame h1
  rw [← hs] at hoff
  exact (hf u _ _ _ h2 l hoff).trans (hcells l hcell)

theorem StoresPushed.after {m : M α} {f : α → M β} (hm : Keeps KeepsStack m) (hf : ∀ a, StoresPushed n (f a)) :
    StoresPushed n (m >>= f) := by
  intro s b t h l hoff
  obtain ⟨a, s1, h1, h2⟩ := bind_eq_ok h
  obtain ⟨hs, hcells⟩ := hm _ _ _ h1
  rw [← hs] at hoff
  exact (hf a _ _ _ h2 l hoff).trans (hcells l)

end

theorem stack_sub_two (q : Byte) : q - 1#8 - 1#8 = q - 2#8 := by bv_omega

/-- What PHA and PHP share: one push. -/
theorem storesPushed_pushing (v : Cpu → Byte) : StoresPushed 1 (do dummyPc; let r ← getCpu; push (v r)) :=
  .after (Keeps.dummyPc keepsStack_read) fun _ => .after (Keeps.getCpu keepsStack_read.frame) fun _ => .push _

/-- Settles O21: PHA and PHP push once, JSR twice and BRK three times, and nothing else of their sequences stores. -/
theorem pushesStoreOnlyOnTheStack : Obligations.PushesStoreOnlyOnTheStack := by
  intro i s t h hname l h0 h1 h2
  have C := keepsCells_readWork
  have getCpu_quiet : Keeps KeepsStack getCpu := Keeps.getCpu keepsStack_read.frame
  have key : ∀ {n : Nat} {m : M Unit},
      StoresPushed n m → outcome m s = .next t → OffStack n s.cpu.s l → t.cell l = s.cell l :=
    fun hm ho => hm _ _ _ (outcome_eq_next ho) l
  rcases pushing_cases hname with rfl | rfl | ⟨lo8, hi8, rfl⟩ | ⟨padding, rfl⟩
  · exact key (storesPushed_pushing Cpu.a) h ⟨h0, trivial⟩
  · exact key (storesPushed_pushing fun r => pImage r.p true) h ⟨h0, trivial⟩
  · exact key (.after (Keeps.dummyStack keepsStack_read) fun _ => .after getCpu_quiet fun _ =>
      .push_bind _ fun _ => .push_bind _ fun _ =>
        .none (Keeps.bind C.frame (C.read _) fun _ => C.cpu _)) h ⟨h0, h1 (by simp [mnemonic]), trivial⟩
  · have hthird : l ≠ .ram (stackCell (s.cpu.s - 1#8 - 1#8)) := by
      rw [stack_sub_two]
      exact h2 rfl
    exact key (.after getCpu_quiet fun _ => .push_bind _ fun _ => .push_bind _ fun _ => .push_bind _ fun _ =>
      .none (Keeps.bind C.frame (C.cpu _) fun _ => Keeps.jumpVector C _)) h
      ⟨h0, h1 (by simp [mnemonic]), hthird, trivial⟩

/-! ### The state right after reset -/

/-- Settles O11: every memory is blank, the counters are in range and the NMI line is low. -/
theorem invariantHoldsAtReset : Obligations.InvariantHoldsAtReset :=
  ⟨by decide, ⟨Memory.wf_nil _, Memory.wf_nil _, Memory.wf_nil _⟩, by nofun, Memory.wf_nil _,
    ⟨Memory.wf_nil _, Memory.wf_nil _⟩, rfl, rfl⟩

/-- A list of zeros is a blank memory. -/
theorem Memory.ofListFrom_zeros {w : Nat} (i : Nat) {bs : List (BitVec w)} (h : ∀ b ∈ bs, b = 0#w) :
    Memory.ofListFrom i bs = [] := by
  induction bs generalizing i with
  | nil => rfl
  | cons b bs ih =>
    rw [Memory.ofListFrom, if_pos (h b (by simp))]
    exact ih (i + 1) fun c hc => h c (by simp [hc])

theorem Memory.ofList_zeros {w : Nat} (size : Nat) {bs : List (BitVec w)} (h : ∀ b ∈ bs, b = 0#w) :
    Memory.ofList size bs = [] :=
  Memory.ofListFrom_zeros 0 fun b hb => h b (List.mem_of_mem_take hb)

/-- A power-on draw of zeros (log entries 1 to 3). -/
def PowerOn.zero : PowerOn :=
  { ram := [], vram := [], pal := [], oam := [], readBuffer := 0, ioLatch := 0, busLatch := 0 }

theorem oamOf_zeros {f : Nat → Byte} (h : ∀ i, f i = 0) : oamOf f = [] := by
  refine Memory.ofListFrom_zeros 0 fun b hb => ?_
  obtain ⟨i, -, rfl⟩ := List.mem_map.mp hb
  simp [h, oamMask]

theorem ppuDraw_zero : PowerOn.zero.ppuDraw = { vram := [], pal := [], oam := [], readBuffer := 0 } := by
  rw [PowerOn.ppuDraw, oamOf_zeros (fun _ => by simp [PowerOn.zero])]
  rfl

theorem boardOf_zeros {c : CartImage} (hlength : c.prg.length = 32768) (hprg : ∀ b ∈ c.prg, b = 0)
    (hchr : ∀ b ∈ c.chr, b = 0) (hmirroring : c.mirroring = .horizontal) : boardOf c .latch = Board.blank := by
  simp [boardOf, Board.blank, hlength, hmirroring, PrgSize.bytes, Memory.ofList_zeros _ hprg, Memory.ofList_zeros _ hchr]

/-- From the registers of `State.reset` and a blank draw, the seven cycles of the reset sequence lead back to
`State.reset`. -/
theorem resetSequence_blank :
    resetSequence { vram := [], pal := [], oam := [], readBuffer := 0 } State.reset = .ok () State.reset := by
  rw [resetSequence_apply]
  rfl

/-- An all-zero 32 KiB cartridge and a draw of zeros build `State.reset`. -/
theorem construct_zeros {c : CartImage} (hprgLength : c.prg.length = 32768) (hchrLength : c.chr.length = 8192)
    (hprg : ∀ b ∈ c.prg, b = 0) (hchr : ∀ b ∈ c.chr, b = 0) (hmirroring : c.mirroring = .horizontal) :
    construct c .latch PowerOn.zero = .next State.reset := by
  have hpower : powerOnState (boardOf c .latch) PowerOn.zero = State.reset := by
    rw [boardOf_zeros hprgLength hprg hchr hmirroring]
    rfl
  rw [construct_of_wf ⟨.inr hprgLength, hchrLength, .inl hmirroring⟩, hpower, ppuDraw_zero]
  exact outcome_ok resetSequence_blank

/-- Settles O9: the block built of zeros is `State.reset`, whose fields are the table's by their definition. -/
theorem resetStateHasTheTableValues : Obligations.ResetStateHasTheTableValues := by
  refine ⟨fun c hprgLength hchrLength hprg hchr => construct_zeros hprgLength hchrLength hprg hchr, ?_⟩
  decide

end Sys2Proof.Machine
end

section
/-! SUPPORT. The proofs of the memory's statements (20_memory): when an instruction can fault and when it completes (R124,
R127, R128, R133), what it leaves in memory (R113), the bus (R100 to R113), the controller port (R145, R146), the PPU's
register port and address space (R116 to R131), and OAM DMA (R140, R141). -/

namespace Sys2Proof.Machine

/-! ### Faults and completion (20_memory R133) -/

/-- The record and the state of a rendering access: a PPUDATA access or an OAMDATA write, raised in a state that draws a
rendering line, in whose field `fault` the record stands (20_memory R124, R127, R128; 60_exceptions R651). -/
def RenderingAccess (r : FaultRecord) (t : State) : Prop :=
  ∃ reg dir, r = .unmodelledRenderingAccess reg dir t.ppu.scanline t.ppu.dot ∧
    (reg = .ppudata ∨ (reg = .oamdata ∧ dir = .write)) ∧ t.ppu.inRender = true ∧ t.fault = some r

/-- A register read faults only as a rendering access. -/
theorem regReadFault_some {s : State} {reg : PpuReg} {r : FaultRecord} (h : regReadFault s reg = some r) :
    RenderingAccess r { s with fault := some r } := by
  rw [regReadFault_eq] at h
  split at h
  · next hc => cases h; exact ⟨.ppudata, .read, rfl, .inl rfl, hc.2, rfl⟩
  · cases h

/-- A register write faults only as a rendering access. -/
theorem regWriteFault_some {s : State} {reg : PpuReg} {r : FaultRecord} (h : regWriteFault s reg = some r) :
    RenderingAccess r { s with fault := some r } := by
  rw [regWriteFault_eq] at h
  split at h
  · next hc => cases h; exact ⟨reg, .write, rfl, hc.1.imp_right fun hreg => ⟨hreg, rfl⟩, hc.2, rfl⟩
  · cases h

/-- Only an access to a PPU register faults, and only as a rendering access. -/
theorem renderingAccess_bus : BusRaises RenderingAccess where
  read a s r t h := by
    cases hf : readFault s a with
    | none => rw [memRead_ok hf] at h; cases h
    | some q =>
      rw [memRead_fault hf] at h
      cases h
      unfold readFault at hf
      split at hf
      · exact regReadFault_some hf
      · cases hf
  write a d s r t h := by
    cases hf : writeFault s a with
    | none => rw [memWrite_ok hf] at h; cases h
    | some q =>
      rw [memWrite_fault hf] at h
      cases h
      unfold writeFault at hf
      split at hf
      · exact regWriteFault_some hf
      · cases hf

/-- Settles O15: an instruction's fault is one of a bus access, and those are rendering accesses. -/
theorem instructionsFaultOnlyOnRenderingAccesses : Obligations.InstructionsFaultOnlyOnRenderingAccesses := by
  refine fun i s => ⟨exec_not_refused i s, fun f h => ?_⟩
  obtain ⟨r, t, rfl, reg, dir, rfl, hreg, hrender, hfault⟩ := exec_raises renderingAccess_bus h
  exact ⟨reg, dir, t, rfl, hreg, hrender, hfault⟩

/-- Settles O20: no read and no change of the CPU registers changes a cell, and such an instruction is made of these. -/
theorem nonStoringInstructionsKeepEveryCell : Obligations.NonStoringInstructionsKeepEveryCell :=
  fun _ _ _ h hw hm hp => exec_keeps_read keepsCells_readWork h hw hm hp

section
variable {α β : Type}

/-- With rendering disabled the work completes, and leaves it disabled. -/
def CompletesOff (m : M α) : Prop := ∀ s, s.renderingOff → ∃ a t, m s = .ok a t ∧ t.renderingOff

theorem CompletesOff.bind {m : M α} {f : α → M β} (hm : CompletesOff m) (hf : ∀ a, CompletesOff (f a)) :
    CompletesOff (m >>= f) := by
  intro s hs
  obtain ⟨a, t, h, ht⟩ := hm s hs
  obtain ⟨b, u, h', hu⟩ := hf a t ht
  exact ⟨b, u, (bind_ok h).trans h', hu⟩

theorem CompletesOff.pure (a : α) : CompletesOff (pure a : M α) := fun s hs => ⟨a, s, rfl, hs⟩

theorem CompletesOff.getCpu : CompletesOff getCpu := fun s hs => ⟨s.cpu, s, rfl, hs⟩

theorem CompletesOff.modifyCpu (f : Cpu → Cpu) : CompletesOff (modifyCpu f) := fun _ hs => ⟨(), _, rfl, hs⟩

theorem CompletesOff.memRead (a : Word) : CompletesOff (memRead a) := fun _ hs =>
  let ⟨t, h, ht⟩ := memRead_off hs a
  ⟨_, t, h, ht⟩

theorem CompletesOff.dummy (a : Word) : CompletesOff (dummy a) := .bind (.memRead a) fun _ => .pure _

theorem CompletesOff.dummyPc : CompletesOff dummyPc := .bind .getCpu fun _ => .dummy _

theorem CompletesOff.dummyStack : CompletesOff dummyStack := .bind .getCpu fun _ => .dummy _

/-- A push writes RAM, which leaves PPUMASK alone. -/
theorem CompletesOff.push (v : Byte) : CompletesOff (push v) := by
  refine fun s hs => ⟨(), _, push_apply v s, ?_⟩
  exact (endCycle_renderingEnabled _).trans hs

theorem CompletesOff.pull : CompletesOff pull := .bind (.modifyCpu _) fun _ => .bind .getCpu fun _ => .memRead _

theorem CompletesOff.addrZpIdx (x : Cpu → Byte) (a : Byte) : CompletesOff (addrZpIdx x a) :=
  .bind (.dummy _) fun _ => .bind .getCpu fun _ => .pure _

theorem CompletesOff.addrIndexedRead (lo hi x : Byte) : CompletesOff (addrIndexedRead lo hi x) := by
  unfold Machine.addrIndexedRead
  split
  · exact .bind (.dummy _) fun _ => .pure _
  · exact .pure _

theorem CompletesOff.addrIndexedFull (lo hi x : Byte) : CompletesOff (addrIndexedFull lo hi x) :=
  .bind (.dummy _) fun _ => .pure _

theorem CompletesOff.addrIndX (p : Byte) : CompletesOff (addrIndX p) :=
  .bind (.dummy _) fun _ => .bind .getCpu fun _ => .bind (.memRead _) fun _ => .bind (.memRead _) fun _ => .pure _

theorem CompletesOff.readOperand (i : Instr) : CompletesOff (readOperand i) := by
  unfold Machine.readOperand
  split
  · exact .pure _
  · exact .bind (.pure _) .memRead
  · exact .bind (.addrZpIdx _ _) .memRead
  · exact .bind (.addrZpIdx _ _) .memRead
  · exact .bind (.pure _) .memRead
  · exact .bind (.bind .getCpu fun _ => .addrIndexedRead _ _ _) .memRead
  · exact .bind (.bind .getCpu fun _ => .addrIndexedRead _ _ _) .memRead
  · exact .bind (.addrIndX _) .memRead
  · exact .bind (.bind (.memRead _) fun _ => .bind (.memRead _) fun _ => .bind .getCpu fun _ =>
      .addrIndexedRead _ _ _) .memRead
  · exact .pure _

theorem CompletesOff.storeAddr (i : Instr) : CompletesOff (storeAddr i) := by
  unfold Machine.storeAddr
  split
  · exact .pure _
  · exact .addrZpIdx _ _
  · exact .addrZpIdx _ _
  · exact .pure _
  · exact .bind .getCpu fun _ => .addrIndexedFull _ _ _
  · exact .bind .getCpu fun _ => .addrIndexedFull _ _ _
  · exact .addrIndX _
  · exact .bind (.memRead _) fun _ => .bind (.memRead _) fun _ => .bind .getCpu fun _ => .addrIndexedFull _ _ _
  · exact .pure _

theorem CompletesOff.implied (f : Cpu → Cpu) : CompletesOff (implied f) := .bind .dummyPc fun _ => .modifyCpu _

theorem CompletesOff.branch (c : Flags → Bool) (off : Byte) : CompletesOff (branch c off) := by
  refine .bind .getCpu fun r => ?_
  split
  · refine .bind (.dummy _) fun _ => .bind ?_ fun _ => .modifyCpu _
    unfold branchFixPage
    split
    · exact .pure _
    · exact .dummy _
  · exact .pure _

theorem CompletesOff.jumpVector (vec : Word) : CompletesOff (jumpVector vec) :=
  .bind (.memRead _) fun _ => .bind (.memRead _) fun _ => .modifyCpu _

theorem CompletesOff.takeException (b : Bool) (vec : Word) : CompletesOff (takeException b vec) :=
  .bind .getCpu fun _ => .bind (.push _) fun _ => .bind (.push _) fun _ => .bind (.push _) fun _ =>
    .bind (.modifyCpu _) fun _ => .jumpVector vec

end

/-- With rendering disabled a write completes; it may enable rendering. -/
theorem memWrite_off {s : State} (h : s.renderingOff) (a : Word) (d : Byte) : ∃ t, memWrite a d s = .ok () t :=
  ⟨_, memWrite_ok (writeFault_off h a)⟩

/-- Whether rendering is enabled is in PPUMASK alone (10_state R57). -/
theorem Ppu.renderingEnabled_congr {p q : Ppu} (h : p.mask = q.mask) : p.renderingEnabled = q.renderingEnabled := by
  rw [Ppu.renderingEnabled, Ppu.renderingEnabled, h]

/-- Only a PPUMASK write changes PPUMASK. -/
theorem afterWrite_mask {s : State} {a : Word} (d : Byte) (h : decodeAddr a ≠ .ppu .ppumask) :
    (afterWrite s a d).ppu.mask = s.ppu.mask := by
  unfold afterWrite
  split
  case h_2 r hr =>
    rw [afterRegWrite, setIoLatch_ppu_mask]
    cases r with
    | ppumask => exact absurd hr h
    | ppuscroll =>
      obtain ⟨t, x, w, he⟩ := s.ppu.writeScroll_eq d
      simp [afterRegWriteRule, he]
    | ppuaddr =>
      obtain ⟨v, t, w, he⟩ := s.ppu.writeAddr_eq d
      simp [afterRegWriteRule, he]
    | ppudata =>
      obtain ⟨vram, pal, he⟩ := ppuSpaceWrite_eq s.board s.ppu s.ppu.dataAddr d
      simp [afterRegWriteRule, he]
    | _ => rfl
  all_goals rfl

/-- After a write with rendering disabled the same address can be written again: rendering is still disabled, or the
address is PPUMASK's, whose writes never fault. -/
theorem writeFault_after_memWrite {s t : State} {a : Word} {d : Byte} {u : Unit} (hs : s.renderingOff)
    (h : memWrite a d s = .ok u t) : writeFault t a = none := by
  by_cases hmask : decodeAddr a = .ppu .ppumask
  · simp [writeFault, hmask, regWriteFault]
  · obtain ⟨-, rfl⟩ := memWrite_eq_ok h
    have hafter : (afterWrite s a d).ppu.renderingEnabled = s.ppu.renderingEnabled :=
      Ppu.renderingEnabled_congr (afterWrite_mask d hmask)
    exact writeFault_off ((endCycle_renderingEnabled _).trans (hafter.trans hs)) a

theorem writeClass_completes (r : Cpu → Byte) {addr : M Word} (h : CompletesOff addr) {s : State} (hs : s.renderingOff) :
    ∃ t, writeClass r addr s = .ok () t := by
  obtain ⟨ea, t, haddr, ht⟩ := h s hs
  obtain ⟨u, hwrite⟩ := memWrite_off ht ea (r t.cpu)
  exact ⟨u, by rw [writeClass, bind_ok haddr, bind_ok (getCpu_apply t), hwrite]⟩

theorem rmwClass_completes (f : RmwFun) {addr : M Word} (h : CompletesOff addr) {s : State} (hs : s.renderingOff) :
    ∃ t, rmwClass f addr s = .ok () t := by
  obtain ⟨ea, t, haddr, ht⟩ := h s hs
  obtain ⟨v, hread, hv⟩ := memRead_off ht ea
  obtain ⟨w, hback⟩ := memWrite_off hv ea (readByte t ea)
  have hresult := memWrite_ok (d := (f w.cpu.p (readByte t ea)).1) (writeFault_after_memWrite hv hback)
  exact ⟨_, by rw [rmwClass, bind_ok haddr, bind_ok hread, bind_ok hback, bind_ok (getCpu_apply w), bind_ok hresult,
    modifyCpu_apply]⟩

/-- With rendering disabled every instruction completes (20_memory R133). -/
theorem exec_completes_off (i : Instr) {s : State} (hs : s.renderingOff) : ∃ t, exec i s = .next t := by
  have key : ∀ {m : M Unit}, CompletesOff m → ∃ t, outcome m s = .next t := fun hm =>
    let ⟨_, t, h, _⟩ := hm s hs
    ⟨t, outcome_ok h⟩
  cases hclass : opClass i with
  | read => rw [exec_read i s hclass]; exact key (.bind (.readOperand i) fun _ => .modifyCpu _)
  | write =>
    obtain ⟨t, h⟩ := writeClass_completes (storedRegister i) (.storeAddr i) hs
    exact ⟨t, (exec_write i s hclass).trans (outcome_ok h)⟩
  | rmw =>
    obtain ⟨t, h⟩ := rmwClass_completes (rmwEffect i) (.storeAddr i) hs
    exact ⟨t, (exec_rmw i s hclass).trans (outcome_ok h)⟩
  | acc => rw [exec_acc i s hclass]; exact key (.implied _)
  | implied => rw [exec_implied i s hclass]; exact key (.implied _)
  | branch =>
    obtain ⟨off, he, -, -⟩ := exec_branch i s hclass
    rw [he]
    exact key (.branch _ off)
  | stack =>
    cases i <;> try (cases hclass; done)
    case pha | php => exact key (.bind .dummyPc fun _ => .bind .getCpu fun _ => .push _)
    case pla | plp =>
      exact key (.bind .dummyPc fun _ => .bind .dummyStack fun _ => .bind .pull fun _ => .modifyCpu _)
  | control =>
    cases i <;> try (cases hclass; done)
    case jmpAbs => exact key (m := setPc _) (.modifyCpu _)
    case jmpInd => exact key (.bind (.memRead _) fun _ => .bind (.memRead _) fun _ => .modifyCpu _)
    case jsr =>
      exact key (.bind .dummyStack fun _ => .bind .getCpu fun _ => .bind (.push _) fun _ => .bind (.push _) fun _ =>
        .bind (.memRead _) fun _ => .modifyCpu _)
    case rts =>
      exact key (.bind .dummyPc fun _ => .bind .dummyStack fun _ => .bind .pull fun _ => .bind .pull fun _ =>
        .bind (.dummy _) fun _ => .modifyCpu _)
    case brk => exact key (.takeException _ _)
    case rti =>
      exact key (.bind .dummyPc fun _ => .bind .dummyStack fun _ => .bind .pull fun _ => .bind (.modifyCpu _) fun _ =>
        .bind .pull fun _ => .bind .pull fun _ => .modifyCpu _)

/-- The fault and the inputs are as they were, and the cycle count has not gone back. -/
def KeepsProgress (s t : State) : Prop := t.fault = s.fault ∧ t.inputs = s.inputs ∧ s.cycles ≤ t.cycles

/-- No access and no change of the CPU registers sets a fault, changes an input or takes time back. -/
theorem keepsProgress_work : WorkKeeps KeepsProgress where
  frame := { refl := fun _ => ⟨rfl, rfl, le_rfl⟩
             trans := fun ⟨hfault, hinputs, hcycles⟩ ⟨hfault', hinputs', hcycles'⟩ =>
               ⟨hfault'.trans hfault, hinputs'.trans hinputs, hcycles.trans hcycles'⟩ }
  read _ _ _ _ h := by
    obtain ⟨-, -, hcycles, -, hfault, -, hinputs, -⟩ := memRead_frame h
    exact ⟨hfault, hinputs, by omega⟩
  write _ _ _ _ _ h := by
    obtain ⟨-, hcycles, hfault, -, hinputs, -⟩ := memWrite_frame h
    exact ⟨hfault, hinputs, by omega⟩
  cpu _ := Keeps.modifyCpu fun _ => ⟨rfl, rfl, le_rfl⟩

/-- Settles O16: no access of an instruction faults before the last one that could enable rendering. -/
theorem everyInstructionCompletesWithRenderingOff : Obligations.EveryInstructionCompletesWithRenderingOff := by
  intro i s hs
  obtain ⟨t, h⟩ := exec_completes_off i hs
  exact ⟨t, h, exec_keeps keepsProgress_work h⟩

/-- The CPU registers and every cell are as they were. -/
def KeepsCpuAndCells (s t : State) : Prop := t.cpu = s.cpu ∧ KeepsCells s t

theorem keepsCpuAndCells_read : ReadKeeps KeepsCpuAndCells where
  frame := { refl := fun _ => ⟨rfl, fun _ => rfl⟩
             trans := fun ⟨hcpu, hcells⟩ ⟨hcpu', hcells'⟩ => ⟨hcpu'.trans hcpu, fun l => (hcells' l).trans (hcells l)⟩ }
  read a s b t h := by
    obtain ⟨-, hcpu, -⟩ := memRead_frame h
    exact ⟨hcpu, keepsCells_readWork.read a s b t h⟩

/-- Settles O23: the operand is read by bus reads alone, which complete with rendering disabled. -/
theorem operandReadsChangeNoRegisterAndNoCell : Obligations.OperandReadsChangeNoRegisterAndNoCell := by
  refine fun i s => ⟨fun hs => ?_, Keeps.readOperand keepsCpuAndCells_read i s⟩
  obtain ⟨m, t, h, -⟩ := CompletesOff.readOperand i s hs
  exact ⟨m, t, h⟩

/-! ### The bus (20_memory R100 to R113) -/

theorem readByte_ram {a : Word} {i : Nat} (h : decodeAddr a = .ram i) (s : State) : readByte s a = s.ram.read i := by
  simp only [readByte, h]

/-- The addresses with no device behind them (20_memory R112). -/
theorem decodeAddr_unmapped {a : Word}
    (h : (0x4000 ≤ a.toNat ∧ a.toNat ≤ 0x4013) ∨ a.toNat = 0x4015 ∨ (0x4018 ≤ a.toNat ∧ a.toNat ≤ 0x7FFF)) :
    decodeAddr a = .unmapped := by
  unfold decodeAddr
  rw [if_neg (by omega), if_neg (by omega), if_neg (by omega), if_neg (by omega), if_neg (by omega), if_pos (by omega)]

/-- An access of a PPU register depends on the register alone, not on the address that selects it (20_memory R105). -/
theorem ppu_access_congr {a b : Word} {r : PpuReg} (ha : decodeAddr a = .ppu r) (hb : decodeAddr b = .ppu r) (s : State)
    (d : Byte) : memRead a s = memRead b s ∧ memWrite a d s = memWrite b d s := by
  simp only [memRead, memWrite, readFault, readByte, afterRead, writeFault, afterWrite, ha, hb, and_self]

/-- Settles O46: the decoder sees the low 11 bits of a RAM address and the low 3 of a PPU register's. -/
theorem ramAndRegistersAreMirrored : Obligations.RamAndRegistersAreMirrored := by
  refine ⟨fun s a d ha => ?_, fun s a b d ha hb => ?_, fun s a b d ha ha' hb hb' hab => ?_⟩
  · exact ⟨memRead_ram (decodeAddr_ram ha) s, memWrite_ram (decodeAddr_ram ha) d s⟩
  · refine ⟨_, memWrite_ram (decodeAddr_ram ha) d s, ?_⟩
    rw [readByte_ram (decodeAddr_ram hb), readByte_ram (decodeAddr_ram hb), endCycle_ram]
    exact Memory.read_write _ _ _ _
  · have hd := decodeAddr_ppu ha ha'
    rw [hab] at hd
    exact ppu_access_congr hd (decodeAddr_ppu hb hb') s d

/-- The PRG index of an address is the address modulo the length, which divides 0x8000 (20_memory R106). -/
theorem prgIndex_eq_mod (sz : PrgSize) {a : Word} (h : 0x8000 ≤ a.toNat) : prgIndex sz a = a.toNat % sz.bytes := by
  cases sz <;> simp only [prgIndex, PrgSize.bytes] <;> omega

/-- A write to an address with no register and no RAM behind it changes the latch and the time alone (20_memory R107,
R112). -/
theorem memWrite_ignored {a : Word} (h : decodeAddr a = .prg ∨ decodeAddr a = .unmapped ∨ decodeAddr a = .pad2) (s : State)
    (d : Byte) : memWrite a d s = .ok () (endCycle { s with busLatch := d }) := by
  rcases h with h | h | h <;>
  rw [memWrite_ok (writeFault_of_not_ppu (by simp [h]))] <;>
  simp only [afterWrite, h]

/-- Settles O47: PRG ROM is read at its index, and a write selects nothing that stores. -/
theorem prgRomIsReadOnly : Obligations.PrgRomIsReadOnly := by
  intro s a d ha
  obtain ⟨t, hread⟩ : ∃ t, memRead a s = .ok (s.board.prg.read (a.toNat % s.board.prgSize.bytes)) t :=
    ⟨_, by rw [memRead_prg (decodeAddr_prg ha), prgIndex_eq_mod _ ha]⟩
  refine ⟨⟨t, hread.trans ?_⟩, memWrite_ignored (.inl (decodeAddr_prg ha)) s d⟩
  cases s.board.prgSize <;> rfl

/-- A read where no device drives the bus gives the open-bus value (20_memory R108, R110, R112). -/
theorem memRead_open {a : Word} (h : decodeAddr a = .unmapped ∨ decodeAddr a = .oamDma) (s : State) :
    memRead a s = .ok (cpuOpen s) (endCycle { s with busLatch := cpuOpen s }) := by
  rcases h with h | h <;>
  rw [memRead_ok (readFault_of_not_ppu (by simp [h]))] <;>
  simp only [readByte, afterRead, h]

/-- Controller port 2 drives the low five bits low (20_memory R111). -/
theorem memRead_pad2 {a : Word} (h : decodeAddr a = .pad2) (s : State) :
    memRead a s = .ok (cpuOpen s &&& 0xE0#8) (endCycle { s with busLatch := cpuOpen s &&& 0xE0#8 }) := by
  rw [memRead_ok (readFault_of_not_ppu (by simp [h]))]
  simp only [readByte, afterRead, h]

theorem memWrite_oamDma (s : State) (d : Byte) :
    memWrite 0x4014#16 d s = .ok () (endCycle { s with dmaRequest := some d, busLatch := d }) := rfl

/-- Settles O48: the decoder's open-bus targets, each with what its read and its write do. -/
theorem unmappedAddressesAreOpenBus : Obligations.UnmappedAddressesAreOpenBus := by
  refine fun s a d => ⟨fun ha => ?_, fun ha => ?_, memRead_open (.inr rfl) s, memWrite_oamDma s d⟩
  · have hd := decodeAddr_unmapped ha
    exact ⟨memRead_open (.inl hd) s, memWrite_ignored (.inr (.inl hd)) s d⟩
  · have hd : decodeAddr a = .pad2 := by
      rw [show a = 0x4017#16 from BitVec.eq_of_toNat_eq ha]
      rfl
    exact ⟨memRead_pad2 hd s, memWrite_ignored (.inr (.inr hd)) s d⟩

/-! ### The controller port (20_memory R145, R146) -/

theorem readByte_pad1 (s : State) :
    readByte s 0x4016#16 = (cpuOpen s &&& 0xE0#8) ||| (BitVec.ofBool (padBit s)).setWidth 8 := rfl

theorem afterRead_pad1 (s : State) : afterRead s 0x4016#16 = { s with pad := padAfterRead s } := rfl

/-- Bit 0 of a read of 0x4016 is the port's data bit. -/
theorem readByte_pad1_zero (s : State) : (readByte s 0x4016#16).getLsbD 0 = padBit s := by
  simp [readByte_pad1]

/-- Above its data bit a read of 0x4016 is the open bus's bits 7:5. -/
theorem readByte_pad1_split (s : State) :
    readByte s 0x4016#16 = (cpuOpen s &&& 0xE0#8) ||| (readByte s 0x4016#16 &&& 0x01#8) := by
  have hbit : ∀ (o : Byte) (b : Bool), ((o &&& 0xE0#8) ||| (BitVec.ofBool b).setWidth 8) =
      (o &&& 0xE0#8) ||| (((o &&& 0xE0#8) ||| (BitVec.ofBool b).setWidth 8) &&& 0x01#8) := by decide
  exact hbit (cpuOpen s) (padBit s)

/-- While the strobe is held, every read returns A. -/
theorem padBit_padReads_held (k : Nat) {s : State} (h : s.pad.strobe = true) :
    padBit (padReads k s) = s.inputs.buttons.a := by
  induction k generalizing s with
  | zero => exact if_pos h
  | succ k ih =>
    have hnext : (afterRead s 0x4016#16).pad.strobe = true := by rw [afterRead_pad1, padAfterRead, if_pos h]; exact h
    exact ih hnext

/-- A shift to the right that takes a 1 in at bit 7 (20_memory R146). -/
theorem shiftInOne_getLsbD (r : Byte) (k : Nat) :
    ((r >>> 1) ||| 0x80#8).getLsbD k = if k = 7 then true else r.getLsbD (k + 1) := by
  have htop : (0x80#8).getLsbD k = decide (k = 7) := by
    by_cases h : k < 8
    · interval_cases k <;> rfl
    · rw [BitVec.getLsbD_of_ge _ _ (by omega)]
      exact (decide_eq_false (by omega)).symm
  rw [BitVec.getLsbD_or, BitVec.getLsbD_ushiftRight, htop, Nat.add_comm 1 k]
  split <;> simp_all

/-- With the strobe released, the k-th read returns bit k of the shift register, and 1 once its eight bits are out. -/
theorem padBit_padReads_released (k : Nat) {s : State} (h : s.pad.strobe = false) :
    padBit (padReads k s) = if k < 8 then s.pad.shiftReg.getLsbD k else true := by
  have hn : ¬ s.pad.strobe = true := by simp [h]
  induction k generalizing s with
  | zero => exact if_neg hn
  | succ k ih =>
    have hpad : (afterRead s 0x4016#16).pad = { s.pad with shiftReg := (s.pad.shiftReg >>> 1) ||| 0x80#8 } := by
      rw [afterRead_pad1, padAfterRead, if_neg hn]
    have hstrobe : (afterRead s 0x4016#16).pad.strobe = false := by rw [hpad]; exact h
    rw [padReads, ih hstrobe (by simp [hstrobe]), hpad, shiftInOne_getLsbD]
    by_cases hlast : k = 7
    · simp [hlast]
    · by_cases hk : k < 7
      · rw [if_pos (by omega), if_neg hlast, if_pos (by omega)]
      · rw [if_neg (by omega), if_neg (by omega)]

/-- The packed buttons from bit 0 on (20_memory R145). -/
theorem packButtons_getLsbD (b : Buttons) {k : Nat} (h : k < 8) : (packButtons b).getLsbD k =
    [b.a, b.b, b.select, b.start, b.up, b.down, b.left, b.right].getD k true := by
  simp only [packButtons, BitVec.getLsbD_append]
  interval_cases k <;> simp

/-- Settles O49: the strobe samples the packed buttons, and the released port shifts them out. -/
theorem controllerShiftsOutTheButtons : Obligations.ControllerShiftsOutTheButtons := by
  intro s k b held sampled
  rw [readByte_pad1_zero, readByte_pad1_zero]
  refine ⟨?_, padBit_padReads_held k rfl, readByte_pad1_split s⟩
  rw [padBit_padReads_released k rfl]
  have hsampled : sampled.pad.shiftReg = packButtons b := rfl
  split
  · next h => rw [hsampled, packButtons_getLsbD b h]
  · next h => exact (List.getD_eq_default _ _ (by simpa using h)).symm

/-! ### The PPU's register port (20_memory R120 to R131) -/

/-- The bits of a status byte, from the top (20_memory R122). -/
theorem statusByte_bits (vbl s0hit sovf : Bool) (low : BitVec 5) :
    let byte : Byte := BitVec.ofBool vbl ++ BitVec.ofBool s0hit ++ BitVec.ofBool sovf ++ low
    byte.getLsbD 7 = vbl ∧ byte.getLsbD 6 = s0hit ∧ byte.getLsbD 5 = sovf ∧ byte.extractLsb' 0 5 = low := by
  simp only [BitVec.getLsbD_append, BitVec.extractLsb'_append_eq_right]
  simp

/-- Settles O50: the byte is three bits above five, and the edge check after the clearing sees the NMI line low. -/
theorem statusReadClearsVblAndToggle : Obligations.StatusReadClearsVblAndToggle := by
  intro s
  obtain ⟨hvbl, hs0hit, hsovf, hlow⟩ :=
    statusByte_bits s.ppu.vbl s.ppu.s0hit s.ppu.sovf ((openValue s.board s.ppu.ioLatch).extractLsb' 0 5)
  refine ⟨hvbl, hs0hit, hsovf, hlow, rfl, ?_⟩
  show NmiUnit.mk false (s.nmi.pending || false) = _
  rw [Bool.or_false]

/-- The bits of a field's replacement are the field's inside it and the old ones outside (00_scope R10). -/
theorem getLsbD_setField {w n : Nat} (v : BitVec w) (lo : Nat) (x : BitVec n) {i : Nat} (hi : i < w) :
    (setField v lo x).getLsbD i = if lo ≤ i ∧ i < lo + n then x.getLsbD (i - lo) else v.getLsbD i := by
  simp only [setField, BitVec.getLsbD_or, BitVec.getLsbD_and, BitVec.getLsbD_not, BitVec.getLsbD_shiftLeft,
    BitVec.getLsbD_setWidth, BitVec.getLsbD_allOnes]
  by_cases hlo : i < lo
  · simp [hi, hlo, show ¬ lo ≤ i by omega]
  · by_cases hhi : i < lo + n
    · simp [hi, hlo, hhi, show lo ≤ i by omega, show i - lo < n by omega, show i - lo < w by omega]
    · simp [hi, hlo, hhi, show ¬ i - lo < n by omega, BitVec.getLsbD_of_ge x (i - lo) (by omega)]

/-- A replaced field reads back as what replaced it. -/
theorem extractLsb'_setField_same {w n : Nat} (v : BitVec w) {lo : Nat} (x : BitVec n) (h : lo + n ≤ w) :
    (setField v lo x).extractLsb' lo n = x := by
  refine BitVec.eq_of_getLsbD_eq fun i hi => ?_
  rw [BitVec.getLsbD_extractLsb', getLsbD_setField v lo x (by omega), if_pos (by omega), Nat.add_sub_cancel_left]
  simp [hi]

/-- Bits outside a replaced field are as they were. -/
theorem extractLsb'_setField_other {w n : Nat} (v : BitVec w) {lo : Nat} (x : BitVec n) {k m : Nat} (hm : k + m ≤ w)
    (h : k + m ≤ lo ∨ lo + n ≤ k) : (setField v lo x).extractLsb' k m = v.extractLsb' k m := by
  refine BitVec.eq_of_getLsbD_eq fun i hi => ?_
  rw [BitVec.getLsbD_extractLsb', BitVec.getLsbD_extractLsb', getLsbD_setField v lo x (by omega), if_neg (by omega)]

theorem afterWrite_ppuscroll_first {s : State} (h : s.ppu.w = false) (d : Byte) : (afterWrite s 0x2005#16 d).ppu =
    { s.ppu with t := setField s.ppu.t 0 (d.extractLsb' 3 5), x := d.extractLsb' 0 3, w := true, ioLatch := d } := by
  show { s.ppu.writeScroll d with ioLatch := d } = _
  rw [Ppu.writeScroll, if_neg (by simp [h])]

theorem afterWrite_ppuscroll_second {s : State} (h : s.ppu.w = true) (d : Byte) : (afterWrite s 0x2005#16 d).ppu =
    { s.ppu with t := setField (setField s.ppu.t 12 (d.extractLsb' 0 3)) 5 (d.extractLsb' 3 5), w := false,
                 ioLatch := d } := by
  show { s.ppu.writeScroll d with ioLatch := d } = _
  rw [Ppu.writeScroll, if_pos h]

theorem afterWrite_ppuaddr_first {s : State} (h : s.ppu.w = false) (d : Byte) : (afterWrite s 0x2006#16 d).ppu =
    { s.ppu with t := setField (setField s.ppu.t 8 (d.extractLsb' 0 6)) 14 0#1, w := true, ioLatch := d } := by
  show { s.ppu.writeAddr d with ioLatch := d } = _
  rw [Ppu.writeAddr, if_neg (by simp [h])]

theorem afterWrite_ppuaddr_second {s : State} (h : s.ppu.w = true) (d : Byte) : (afterWrite s 0x2006#16 d).ppu =
    { s.ppu with t := setField s.ppu.t 0 d, v := setField s.ppu.t 0 d, w := false, ioLatch := d } := by
  show { s.ppu.writeAddr d with ioLatch := d } = _
  rw [Ppu.writeAddr, if_pos h]

/-- The address two PPUADDR writes assemble: the low byte under the low six bits of the high byte, bit 14 clear
(20_memory R129). -/
theorem assembledAddr_eq (t : BitVec 15) (hi lo : Byte) :
    setField (setField (setField t 8 (hi.extractLsb' 0 6)) 14 0#1) 0 lo = (cat16 (hi &&& 0x3F#8) lo).setWidth 15 := by
  refine BitVec.eq_of_getLsbD_eq fun i h => ?_
  simp only [getLsbD_setField _ _ _ h, cat16, BitVec.getLsbD_setWidth, BitVec.getLsbD_append, BitVec.getLsbD_and,
    BitVec.getLsbD_extractLsb']
  interval_cases i <;> simp

/-- Settles O52: the toggle chooses the fields a write replaces. -/
theorem writeTwiceRegistersAssembleTheirPair : Obligations.WriteTwiceRegistersAssembleTheirPair := by
  intro s d p q r
  refine ⟨fun hw => ⟨?_, ?_⟩, fun hw => ⟨?_, ?_⟩, fun d2 hw => ?_⟩
  · rw [show q = _ from afterWrite_ppuscroll_first hw d]
    refine ⟨rfl, ?_, ?_⟩ <;>
    simp (disch := decide) only [coarseX, extractLsb'_setField_same, extractLsb'_setField_other, p]
  · rw [show r = _ from afterWrite_ppuaddr_first hw d]
    refine ⟨rfl, ?_, getLsbD_setField _ _ _ (by decide), ?_⟩ <;>
    simp (disch := decide) only [extractLsb'_setField_same, extractLsb'_setField_other, p]
  · rw [show q = _ from afterWrite_ppuscroll_second hw d]
    refine ⟨rfl, ?_, ?_, ?_, ?_⟩ <;>
    simp (disch := decide) only [coarseX, coarseY, fineY, nametableSelect, extractLsb'_setField_same,
      extractLsb'_setField_other, p]
  · rw [show r = _ from afterWrite_ppuaddr_second hw d]
    refine ⟨rfl, ?_, ?_⟩ <;>
    simp (disch := decide) only [extractLsb'_setField_same, extractLsb'_setField_other, p]
  · have hfirst := afterWrite_ppuaddr_first hw d
    rw [afterWrite_ppuaddr_second (by rw [hfirst]) d2, hfirst]
    exact assembledAddr_eq p.t d d2

/-! ### The PPU's address space (20_memory R116 to R119) -/

section
variable {b : Board} {p : Ppu} {a : Word}

theorem ppuSpaceRead_chr (h : a.toNat < 0x2000) : ppuSpaceRead b p a = b.chr.read a.toNat := if_pos (by omega)

theorem ppuSpaceRead_vram (h1 : 0x2000 ≤ a.toNat) (h2 : a.toNat < 0x3F00) :
    ppuSpaceRead b p a = p.vram.read (ntIndex b.mirroring a) := by
  rw [ppuSpaceRead, if_neg (by omega), if_pos (by omega)]

theorem ppuSpaceRead_pal (h : 0x3F00 ≤ a.toNat) : ppuSpaceRead b p a = (p.pal.read (palIndex a)).setWidth 8 := by
  rw [ppuSpaceRead, if_neg (by omega), if_neg (by omega)]

theorem ppuSpaceWrite_chr (h : a.toNat < 0x2000) (d : Byte) : ppuSpaceWrite b p a d = p := if_pos (by omega)

theorem ppuSpaceWrite_vram (h1 : 0x2000 ≤ a.toNat) (h2 : a.toNat < 0x3F00) (d : Byte) :
    ppuSpaceWrite b p a d = { p with vram := p.vram.write (ntIndex b.mirroring a) d } := by
  rw [ppuSpaceWrite, if_neg (by omega), if_pos (by omega)]

theorem ppuSpaceWrite_pal (h : 0x3F00 ≤ a.toNat) (d : Byte) :
    ppuSpaceWrite b p a d = { p with pal := p.pal.write (palIndex a) (d.setWidth 6) } := by
  rw [ppuSpaceWrite, if_neg (by omega), if_neg (by omega)]

/-- Below the palette the buffer is filled from the address presented. -/
theorem bufferAddr_low (h : p.dataAddr.toNat < 0x3F00) : p.bufferAddr = p.dataAddr := if_pos h

/-- In the palette the buffer is filled from 0x1000 below it, which lies in VRAM (20_memory R127). -/
theorem bufferAddr_palette (h : 0x3F00 ≤ p.dataAddr.toNat) :
    p.bufferAddr = p.dataAddr - 0x1000#16 ∧ 0x2000 ≤ p.bufferAddr.toNat ∧ p.bufferAddr.toNat < 0x3F00 := by
  have hlt := dataAddr_lt p
  have he : p.bufferAddr = p.dataAddr - 0x1000#16 := if_neg (by omega)
  refine ⟨he, ?_⟩
  rw [he]
  bv_omega

end

/-- The low `k` bits of an address, as a remainder. -/
theorem toNat_and_lowBits {a m : Word} (k : Nat) (h : m.toNat = 2 ^ k - 1) : (a &&& m).toNat = a.toNat % 2 ^ k := by
  rw [BitVec.toNat_and, h, Nat.and_two_pow_sub_one_eq_mod]

/-- The offset of a nametable address in the mirrored 4 KiB (20_memory R118). -/
theorem nametableOffset_toNat (a : Word) : ((a - 0x2000#16) &&& 0x0FFF#16).toNat = a.toNat % 0x1000 := by
  rw [toNat_and_lowBits 12 rfl]
  bv_omega

/-- A nametable address's cell: its low ten bits, in the half that bit 11 or bit 10 chooses (20_memory R118). -/
theorem ntIndex_eq (m : Mirroring) (a : Word) :
    ntIndex m a = a.toNat / (match m with | .horizontal => 0x800 | .vertical => 0x400) % 2 * 0x400 + a.toNat % 0x400 := by
  have hlow : ((a - 0x2000#16) &&& 0x0FFF#16 &&& 0x03FF#16).toNat = a.toNat % 0x400 := by
    rw [toNat_and_lowBits 10 rfl, nametableOffset_toNat]
    omega
  cases m <;>
  simp only [ntIndex, hlow, BitVec.getLsbD, nametableOffset_toNat, Nat.testBit_eq_decide_div_mod_eq, decide_eq_true_eq] <;>
  split <;> omega

/-- A palette address's cell: its low five bits, a sprite background entry on the background's (20_memory R119). -/
theorem palIndex_eq (a : Word) :
    palIndex a = if 16 ≤ a.toNat % 32 ∧ a.toNat % 4 = 0 then a.toNat % 32 - 16 else a.toNat % 32 := by
  simp only [palIndex, toNat_and_lowBits (a := a) (m := 0x001F#16) 5 rfl]
  split <;> split <;> omega

theorem ntIndex_ofNat (m : Mirroring) {n : Nat} (h : n < 0x10000) :
    ntIndex m (BitVec.ofNat 16 n) =
      n / (match m with | .horizontal => 0x800 | .vertical => 0x400) % 2 * 0x400 + n % 0x400 := by
  rw [ntIndex_eq, BitVec.toNat_ofNat, Nat.mod_eq_of_lt h]

theorem palIndex_ofNat {n : Nat} (h : n < 0x10000) :
    palIndex (BitVec.ofNat 16 n) = if 16 ≤ n % 32 ∧ n % 4 = 0 then n % 32 - 16 else n % 32 := by
  rw [palIndex_eq, BitVec.toNat_ofNat, Nat.mod_eq_of_lt h]

/-- Settles O54: the indices are remainders of the address. -/
theorem nametablesAndPaletteAreMirrored : Obligations.NametablesAndPaletteAreMirrored := by
  refine ⟨fun off hoff => ?_, fun m k hk => ?_, fun i hi k hk => ?_, fun b p a d ha _ => ?_⟩
  · refine ⟨?_, ?_, ?_, ?_, ?_, ?_, ?_, ?_⟩ <;> rw [ntIndex_ofNat _ (by omega)] <;> dsimp only <;> omega
  · rw [ntIndex_ofNat _ (by omega), ntIndex_ofNat _ (by omega)]
    cases m <;> dsimp only <;> omega
  · have hmod : (0x3F00 + 32 * k + i) % 32 = i ∧ (0x3F00 + 32 * k + i) % 4 = i % 4 := by omega
    rw [palIndex_ofNat (by omega), hmod.1, hmod.2]
  · have hsix : ∀ d : Byte, (d.setWidth 6).setWidth 8 = d &&& 0x3F#8 := by decide
    rw [ppuSpaceWrite_pal ha, ppuSpaceRead_pal ha, Memory.read_write_same, hsix]

/-! ### PPUDATA and OAMDATA (20_memory R124, R127, R128) -/

theorem afterRead_ppudata (s : State) : (afterRead s 0x2007#16).ppu =
    { s.ppu with readBuffer := ppuSpaceRead s.board s.ppu s.ppu.bufferAddr, v := s.ppu.v + s.ppu.increment,
                 ioLatch := readByte s 0x2007#16 } := rfl

theorem afterWrite_ppudata (s : State) (d : Byte) : (afterWrite s 0x2007#16 d).ppu =
    { ppuSpaceWrite s.board s.ppu s.ppu.dataAddr d with v := s.ppu.v + s.ppu.increment, ioLatch := d } := rfl

section
variable {s : State}

/-- Below the palette a PPUDATA read returns the buffer, and the buffer is filled from the address presented. -/
theorem ppudata_read_buffered (h : s.ppu.dataAddr.toNat < 0x3F00) :
    readByte s 0x2007#16 = s.ppu.readBuffer ∧ (afterRead s 0x2007#16).ppu =
      { s.ppu with readBuffer := ppuSpaceRead s.board s.ppu s.ppu.dataAddr, v := s.ppu.v + s.ppu.increment,
                   ioLatch := s.ppu.readBuffer } := by
  have hbyte : readByte s 0x2007#16 = s.ppu.readBuffer := if_pos h
  exact ⟨hbyte, by rw [afterRead_ppudata, hbyte, bufferAddr_low h]⟩

/-- A palette read returns the cell at once, and the buffer is filled from VRAM. -/
theorem ppudata_read_palette (h : 0x3F00 ≤ s.ppu.dataAddr.toNat) :
    readByte s 0x2007#16 =
      ((openValue s.board s.ppu.ioLatch &&& 0xC0#8) ||| (s.ppu.pal.read (palIndex s.ppu.dataAddr)).setWidth 8) ∧
    (afterRead s 0x2007#16).ppu =
      { s.ppu with readBuffer := s.ppu.vram.read (ntIndex s.board.mirroring (s.ppu.dataAddr - 0x1000#16)),
                   v := s.ppu.v + s.ppu.increment, ioLatch := readByte s 0x2007#16 } := by
  obtain ⟨hbuffer, hlo, hhi⟩ := bufferAddr_palette h
  refine ⟨(if_neg (by omega)).trans (by rw [ppuSpaceRead_pal h]), ?_⟩
  rw [afterRead_ppudata, ppuSpaceRead_vram hlo hhi, hbuffer]

/-- No PPUDATA access faults while the renderer does not own the bus. -/
theorem ppudata_noFault (h : s.ppu.inRender = false) :
    readFault s 0x2007#16 = none ∧ writeFault s 0x2007#16 = none :=
  ⟨(regReadFault_eq s .ppudata).trans (if_neg (by simp [h])), (regWriteFault_eq s .ppudata).trans (if_neg (by simp [h]))⟩

end

/-- Settles O53: the range of the address presented chooses the memory an access goes to. -/
theorem ppuDataMovesTheBufferAndTheAddress : Obligations.PpuDataMovesTheBufferAndTheAddress := by
  intro s d p a v raised written
  refine ⟨fun hrender => ⟨memRead_fault (if_pos hrender), memWrite_fault (if_pos hrender)⟩, fun hoff => ?_⟩
  have hwritten : written = { ppuSpaceWrite s.board p a d with v := v, ioLatch := d } := afterWrite_ppudata s d
  obtain ⟨hread, hwrite⟩ := ppudata_noFault hoff
  refine ⟨hread, hwrite, fun hchr => ?_, fun hlo hhi => ?_, ppudata_read_palette, fun hchr => ?_, fun hlo hhi => ?_,
    fun hpal => ?_⟩
  · rw [← ppuSpaceRead_chr (p := p) hchr]
    exact ppudata_read_buffered (show a.toNat < 0x3F00 by omega)
  · rw [← ppuSpaceRead_vram hlo hhi]
    exact ppudata_read_buffered hhi
  · rw [hwritten, ppuSpaceWrite_chr hchr]
  · rw [hwritten, ppuSpaceWrite_vram hlo hhi]
  · rw [hwritten, ppuSpaceWrite_pal hpal]

/-- Settles O55: a write faults exactly while the renderer owns OAM, and otherwise stores to the one cell OAMADDR names. -/
theorem oamDataStoresAndSteps : Obligations.OamDataStoresAndSteps := by
  intro s d t raised
  refine ⟨rfl, rfl, fun h => ?_, fun h => ⟨?_, rfl, fun i => Memory.read_write _ _ _ _, ?_⟩⟩
  · exact memWrite_fault (if_pos h)
  · exact if_neg (by simp [h])
  · exact if_neg (by simp [h])

/-- Settles O56: the rules of these registers are one field's update or none, and the I/O latch is set after every rule. -/
theorem plainWritesStoreAndWrongDirectionsOnlyLatch : Obligations.PlainWritesStoreAndWrongDirectionsOnlyLatch := by
  refine fun s d => ⟨rfl, rfl, fun a ha => ?_, rfl, fun a ha ha' => ?_⟩
  · simp only [List.mem_cons, List.not_mem_nil, or_false] at ha
    rcases ha with rfl | rfl | rfl | rfl | rfl <;> exact ⟨rfl, rfl, rfl⟩
  · have hd := decodeAddr_ppu ha ha'
    simp only [afterWrite, afterRead, readByte, hd]
    exact ⟨rfl, rfl⟩

/-! ### OAM DMA (20_memory R140, R141) -/

/-- The pairs of a transfer, with their offsets given by numbers (20_memory R140). -/
theorem dmaCopy_map (p : Byte) (f : Nat → Byte) (ns : List Nat) :
    dmaCopy p (ns.map f) = (ns.forM fun n => memRead (cat16 p (f n)) >>= memWrite 0x2004#16 : M Unit) := by
  induction ns with
  | nil => rfl
  | cons n ns ih =>
    funext s
    rw [List.map_cons, dmaCopy, ih]
    exact bind_assoc_apply _ _ _ s

/-- The idle cycles a transfer begins with: one, and one more when it starts on an odd cycle (20_memory R140). -/
def dmaIdle (s : State) : Nat := if s.cycles % 2 = 1 then 2 else 1

/-- A transfer is its idle cycles, then its pairs. -/
theorem runDma_apply (p : Byte) (s : State) :
    runDma p s = dmaCopy p pageOffsets (idleCycles (dmaIdle s) { s with dmaRequest := none }) := by
  unfold runDma dmaIdle
  split <;> simp only [bind_eq, idle_apply, idleCycles]

/-- For `n` dots to come OAMADDR stays as it is: rendering is disabled, or the PPU is past the visible lines, and more than
`n` dots before dot 257 of the pre-render line (60_exceptions R607). -/
def Ppu.oamAddrSafe (n : Nat) (p : Ppu) : Prop :=
  p.renderingEnabled = false ∨
    (240 ≤ p.scanline ∧ p.dot ≤ 340 ∧ n + (p.scanline * 341 + p.dot) ≤ 261 * 341 + 256)

/-- The renderer does not own OAM as long as the pre-render line has not begun. -/
theorem Ppu.oamAddrSafe.not_inRender {n : Nat} {p : Ppu} (h : p.oamAddrSafe n) (hn : 257 ≤ n) : p.inRender = false := by
  rcases h with hoff | ⟨hline, hdot, hbefore⟩
  · rw [Ppu.inRender, hoff, Bool.false_and]
  · have hblank : p.renderingLine = false := decide_eq_false (by omega)
    rw [Ppu.inRender, hblank, Bool.and_false]

theorem tick_scanline (s : State) : (tick s).ppu.scanline = s.ppu.advance.scanline := rfl

theorem tick_dot (s : State) : (tick s).ppu.dot = s.ppu.advance.dot := rfl

/-- From a line past the visible ones, before the dot that may be skipped, a dot is the next position of the frame
(60_exceptions R601). -/
theorem tick_position {s : State} (hline : 240 ≤ s.ppu.scanline) (hdot : s.ppu.dot ≤ 340)
    (h : s.ppu.scanline * 341 + s.ppu.dot < 261 * 341 + 256) :
    240 ≤ (tick s).ppu.scanline ∧ (tick s).ppu.dot ≤ 340 ∧
      (tick s).ppu.scanline * 341 + (tick s).ppu.dot = s.ppu.scanline * 341 + s.ppu.dot + 1 := by
  have hskip : s.ppu.skipsDot = false := by
    rw [Ppu.skipsDot, decide_eq_false (by omega), Bool.false_and, Bool.false_and]
  have hends : s.ppu.lineEnds = decide (s.ppu.dot = 340) := by rw [Ppu.lineEnds, hskip, Bool.or_false]
  rw [tick_scanline, tick_dot]
  by_cases hlast : s.ppu.dot = 340
  · have hframe : s.ppu.scanline ≠ 261 := by omega
    simp only [Ppu.advance, Ppu.frameEnds, hends, hlast, hframe, decide_true, decide_false, Bool.and_false,
      Bool.false_eq_true, if_true, if_false]
    omega
  · simp only [Ppu.advance, Ppu.frameEnds, hends, hlast, decide_false, Bool.false_and, Bool.false_eq_true, if_false]
    omega

theorem tick_inRender (s : State) : (tick s).ppu.inRender = s.ppu.advance.lineEvents.inRender := by
  have henabled : (tick s).ppu.renderingEnabled = s.ppu.advance.lineEvents.renderingEnabled := rfl
  rw [Ppu.inRender, Ppu.inRender, henabled, Ppu.renderingLine, Ppu.renderingLine, tick_scanline, Ppu.lineEvents_scanline]

/-- A dot moves OAMADDR only at dots 257 to 320 of a line that is rendered (60_exceptions R607). -/
theorem tick_oamAddr {s : State}
    (h : ¬ ((tick s).ppu.inRender = true ∧ 257 ≤ (tick s).ppu.dot ∧ (tick s).ppu.dot ≤ 320)) :
    (tick s).ppu.oamAddr = s.ppu.oamAddr := by
  rw [tick_inRender, tick_dot] at h
  refine if_neg fun hmoves => h ?_
  obtain ⟨hrender, hdot⟩ := Bool.and_eq_true_iff.mp hmoves
  exact ⟨hrender, of_decide_eq_true hdot⟩

/-- A dot within the safe ones leaves OAMADDR alone, and one fewer is left. -/
theorem tick_oamAddrSafe {n : Nat} {s : State} (h : s.ppu.oamAddrSafe (n + 1)) :
    (tick s).ppu.oamAddrSafe n ∧ (tick s).ppu.oamAddr = s.ppu.oamAddr := by
  rcases h with hoff | ⟨hline, hdot, hbefore⟩
  · have hoff' : (tick s).ppu.renderingEnabled = false := (tick_renderingEnabled s).trans hoff
    refine ⟨.inl hoff', tick_oamAddr fun ⟨hrender, _⟩ => ?_⟩
    simp [Ppu.inRender, hoff'] at hrender
  · obtain ⟨hline', hdot', hnext⟩ := tick_position hline hdot (by omega)
    refine ⟨.inr ⟨hline', hdot', by omega⟩, tick_oamAddr fun ⟨hrender, hlo, hhi⟩ => ?_⟩
    have hrendered := of_decide_eq_true (Bool.and_eq_true_iff.mp hrender).2
    omega

/-- A cycle is three dots. -/
theorem endCycle_oamAddrSafe {n : Nat} {s : State} (h : s.ppu.oamAddrSafe (n + 3)) :
    (endCycle s).ppu.oamAddrSafe n ∧ (endCycle s).ppu.oamAddr = s.ppu.oamAddr := by
  obtain ⟨h1, e1⟩ := tick_oamAddrSafe (s := { s with cycles := s.cycles + 1 }) (n := n + 2) h
  obtain ⟨h2, e2⟩ := tick_oamAddrSafe h1
  obtain ⟨h3, e3⟩ := tick_oamAddrSafe h2
  exact ⟨h3, e3.trans (e2.trans e1)⟩

theorem idleCycles_oamAddrSafe (k : Nat) {n : Nat} {s : State} (h : s.ppu.oamAddrSafe (n + 3 * k)) :
    (idleCycles k s).ppu.oamAddrSafe n ∧ (idleCycles k s).ppu.oamAddr = s.ppu.oamAddr := by
  induction k generalizing s with
  | zero => exact ⟨h, rfl⟩
  | succ k ih =>
    obtain ⟨h1, e1⟩ := endCycle_oamAddrSafe (n := n + 3 * k) h
    obtain ⟨h2, e2⟩ := ih h1
    exact ⟨h2, e2.trans e1⟩

/-- OAM after OAMDATA writes of these bytes in turn, from cell `a` on (20_memory R124). -/
def oamFill : Memory 8 → Byte → List Byte → Memory 8
  | m, _, [] => m
  | m, a, b :: bs => oamFill (m.write a.toNat (oamMask a.toNat b)) (a + 1#8) bs

/-- A cell beyond the bytes written is as it was. -/
theorem oamFill_read_other {m : Memory 8} {a : Byte} {bs : List Byte} {c : Nat}
    (h : ∀ j < bs.length, c ≠ (a.toNat + j) % 256) : (oamFill m a bs).read c = m.read c := by
  induction bs generalizing m a with
  | nil => rfl
  | cons b bs ih =>
    have hfirst := h 0 (by simp)
    rw [oamFill, ih fun j hj => ?_, Memory.read_write_other _ _ (by omega)]
    have hnext := h (j + 1) (by simpa using hj)
    rw [BitVec.toNat_add]
    simp only [BitVec.toNat_ofNat]
    omega

/-- At most 256 bytes go to as many cells, each without its unimplemented bits. -/
theorem oamFill_read {m : Memory 8} {a : Byte} {bs : List Byte} (hlen : bs.length ≤ 256) {j : Nat} {b : Byte}
    (h : bs[j]? = some b) : (oamFill m a bs).read ((a.toNat + j) % 256) = oamMask ((a.toNat + j) % 256) b := by
  induction bs generalizing m a j with
  | nil => simp at h
  | cons b' bs ih =>
    have hlen' : bs.length < 256 := by simpa using hlen
    have hstep : (a + 1#8).toNat = (a.toNat + 1) % 256 := BitVec.toNat_add a 1#8
    cases j with
    | zero =>
      obtain rfl : b' = b := by simpa using h
      have hcell : (a.toNat + 0) % 256 = a.toNat := by omega
      rw [hcell, oamFill, oamFill_read_other fun j hj => by omega, Memory.read_write_same]
    | succ j =>
      have hcell : (a.toNat + (j + 1)) % 256 = ((a + 1#8).toNat + j) % 256 := by omega
      rw [hcell]
      exact ih (by omega) (by simpa using h)

/-- The state after an OAMDATA write of `d`, before its cycle ends (20_memory R124, R131). -/
def oamWritten (d : Byte) (s : State) : State :=
  { s with busLatch := d
           ppu := { s.ppu with oam := s.ppu.oam.write s.ppu.oamAddr.toNat (oamMask s.ppu.oamAddr.toNat d)
                               oamAddr := s.ppu.oamAddr + 1#8, ioLatch := d } }

/-- While the renderer does not own OAM an OAMDATA write completes. -/
theorem memWrite_oamdata {s : State} (h : s.ppu.inRender = false) (d : Byte) :
    memWrite 0x2004#16 d s = .ok () (endCycle (oamWritten d s)) :=
  memWrite_ok (if_neg (by simp [h]))

/-- What a transfer leaves alone: the CPU, RAM, the cartridge and the request, which it has consumed at its start. -/
def KeepsOutside (s t : State) : Prop :=
  t.cpu = s.cpu ∧ t.ram = s.ram ∧ t.board = s.board ∧ t.dmaRequest = s.dmaRequest

theorem KeepsOutside.trans {s t u : State} : KeepsOutside s t → KeepsOutside t u → KeepsOutside s u := by
  rintro ⟨hcpu, hram, hboard, hdma⟩ ⟨hcpu', hram', hboard', hdma'⟩
  exact ⟨hcpu'.trans hcpu, hram'.trans hram, hboard'.trans hboard, hdma'.trans hdma⟩

theorem idleCycles_keepsOutside (k : Nat) (s : State) : KeepsOutside s (idleCycles k s) :=
  ⟨idleCycles_field State.cpu endCycle_cpu k s, idleCycles_ram k s, idleCycles_board k s,
    idleCycles_field State.dmaRequest endCycle_dmaRequest k s⟩

/-- The read of a pair, from plain memory. -/
theorem dma_read {a : Word} {s : State} {n : Nat} (hcode : holdsCode a = true) (hsafe : s.ppu.oamAddrSafe (n + 3)) :
    ∃ t, memRead a s = .ok (readByte s a) t ∧ KeepsOutside s t ∧ t.cycles = s.cycles + 1 ∧
      t.ppu.oamAddr = s.ppu.oamAddr ∧ t.ppu.oam = s.ppu.oam ∧ t.ppu.oamAddrSafe n := by
  obtain ⟨hsafe', haddr⟩ := endCycle_oamAddrSafe (s := { s with busLatch := readByte s a }) hsafe
  exact ⟨_, memRead_plain hcode s, ⟨rfl, rfl, rfl, rfl⟩, rfl, haddr, endCycle_ppu_oam _, hsafe'⟩

/-- The write of a pair, before the pre-render line. -/
theorem dma_write {s : State} {n : Nat} (b : Byte) (hsafe : s.ppu.oamAddrSafe (n + 3)) (hn : 254 ≤ n) :
    ∃ t, memWrite 0x2004#16 b s = .ok () t ∧ KeepsOutside s t ∧ t.cycles = s.cycles + 1 ∧
      t.ppu.oamAddr = s.ppu.oamAddr + 1#8 ∧
      t.ppu.oam = s.ppu.oam.write s.ppu.oamAddr.toNat (oamMask s.ppu.oamAddr.toNat b) ∧ t.ppu.oamAddrSafe n := by
  have hrender : s.ppu.inRender = false := hsafe.not_inRender (by omega)
  obtain ⟨hsafe', haddr⟩ := endCycle_oamAddrSafe (s := oamWritten b s) hsafe
  exact ⟨_, memWrite_oamdata hrender b, ⟨rfl, rfl, rfl, rfl⟩, rfl, haddr, endCycle_ppu_oam _, hsafe'⟩

/-- The pairs of a transfer from plain memory, the last write before the pre-render line: two cycles each, and OAM filled
with the bytes of the page from OAMADDR on. -/
theorem dmaCopy_fills (p : Byte) (is : List Byte) {s : State} (hcode : ∀ i, holdsCode (cat16 p i) = true)
    (hsafe : s.ppu.oamAddrSafe (254 + 6 * is.length)) :
    ∃ t, dmaCopy p is s = .ok () t ∧ KeepsOutside s t ∧ t.cycles = s.cycles + 2 * is.length ∧
      t.ppu.oamAddr = s.ppu.oamAddr + BitVec.ofNat 8 is.length ∧
      t.ppu.oam = oamFill s.ppu.oam s.ppu.oamAddr (is.map fun i => readByte s (cat16 p i)) := by
  induction is generalizing s with
  | nil => exact ⟨s, rfl, ⟨rfl, rfl, rfl, rfl⟩, rfl, (BitVec.add_zero _).symm, rfl⟩
  | cons i is ih =>
    obtain ⟨u, hread, hkeep1, hcycles1, haddr1, hoam1, hsafe1⟩ :=
      dma_read (n := 254 + 6 * is.length + 3) (hcode i) hsafe
    obtain ⟨v, hwrite, hkeep2, hcycles2, haddr2, hoam2, hsafe2⟩ := dma_write (readByte s (cat16 p i)) hsafe1 (by omega)
    obtain ⟨t, hcopy, hkeep3, hcycles3, haddr3, hoam3⟩ := ih hsafe2
    obtain ⟨-, hram, hboard, -⟩ := hkeep1.trans hkeep2
    refine ⟨t, ?_, hkeep1.trans (hkeep2.trans hkeep3), ?_, ?_, ?_⟩
    · rw [dmaCopy, bind_ok hread, bind_ok hwrite, hcopy]
    · rw [hcycles3, hcycles2, hcycles1, List.length_cons]
      omega
    · rw [haddr3, haddr2, haddr1, List.length_cons]
      bv_omega
    · have hsame : ∀ j, readByte v (cat16 p j) = readByte s (cat16 p j) := fun j => readByte_plain (hcode j) hram hboard
      rw [hoam3, hoam2, haddr2, hoam1, haddr1, List.map_cons, oamFill]
      simp only [hsame]

/-- The pages of RAM and of PRG ROM hold plain memory (20_memory R100). -/
theorem holdsCode_page {p : Byte} (h : p.toNat < 0x20 ∨ 0x80 ≤ p.toNat) (i : Byte) : holdsCode (cat16 p i) = true := by
  have hi : i.toNat < 256 := i.isLt
  have haddr : (cat16 p i).toNat = 2 ^ 8 * p.toNat + i.toNat := by
    rw [cat16, BitVec.toNat_append, Nat.shiftLeft_eq, Nat.mul_comm, Nat.two_pow_add_eq_or_of_lt hi]
  rcases h with h | h
  · rw [holdsCode, decodeAddr_ram (by omega)]
  · rw [holdsCode, decodeAddr_prg (by omega)]

theorem pageOffsets_length : pageOffsets.length = 256 := by
  rw [pageOffsets, List.length_map, List.length_range]

theorem pageOffsets_get {i : Nat} (h : i < 256) : pageOffsets[i]? = some (BitVec.ofNat 8 i) := by
  simp [pageOffsets, h]

/-- A transfer from a page of plain memory whose last write comes before the pre-render line fills all of OAM
(20_memory R133, R140). -/
theorem runDma_fills {p : Byte} {s : State} (hpage : p.toNat < 0x20 ∨ 0x80 ≤ p.toNat)
    (hsafe : s.ppu.oamAddrSafe (254 + 6 * 256 + 3 * dmaIdle s)) :
    ∃ t, runDma p s = .ok () t ∧ KeepsOutside { s with dmaRequest := none } t ∧ t.cycles = s.cycles + dmaIdle s + 512 ∧
      t.ppu.oamAddr = s.ppu.oamAddr ∧
      t.ppu.oam = oamFill s.ppu.oam s.ppu.oamAddr (pageOffsets.map fun i => readByte s (cat16 p i)) := by
  have hcode := holdsCode_page hpage
  obtain ⟨hsafe', haddr'⟩ := idleCycles_oamAddrSafe (dmaIdle s) (s := { s with dmaRequest := none }) hsafe
  rw [← pageOffsets_length] at hsafe'
  obtain ⟨t, hcopy, hkeep, hcycles, haddr, hoam⟩ := dmaCopy_fills p pageOffsets hcode hsafe'
  have hidle := idleCycles_keepsOutside (dmaIdle s) { s with dmaRequest := none }
  have ⟨_, hram, hboard, _⟩ := hidle
  refine ⟨t, (runDma_apply p s).trans hcopy, hidle.trans hkeep, ?_, ?_, ?_⟩
  · rw [hcycles, idleCycles_cycles, pageOffsets_length]
  · rw [haddr, haddr', pageOffsets_length]
    exact BitVec.add_zero _
  · have hsame : ∀ i, readByte (idleCycles (dmaIdle s) { s with dmaRequest := none }) (cat16 p i) = readByte s (cat16 p i) :=
      fun i => readByte_plain (hcode i) hram hboard
    rw [hoam, haddr', idleCycles_ppu_oam]
    simp only [hsame]

/-- Settles O60: the transfer is its idle cycles and its pairs. From plain memory, and with the last write before the
pre-render line, each pair stores the next byte of the page. -/
theorem oamDmaCopiesItsPage : Obligations.OamDmaCopiesItsPage := by
  intro s p
  refine ⟨fun h => by rw [runRequestedDma, h], fun h => by rw [runRequestedDma, h], ?_, ?_⟩
  · rw [runDma_apply, pageOffsets, dmaCopy_map]
    unfold dmaIdle
    split
    · rfl
    · rfl
  · intro n hpage hsafe
    have hn : n = dmaIdle s + 512 := by
      simp only [n, dmaIdle]
      split <;> rfl
    have hsafe' : s.ppu.oamAddrSafe (254 + 6 * 256 + 3 * dmaIdle s) :=
      hsafe.imp_right fun ⟨hline, hdot, hbefore⟩ => ⟨hline, hdot, by omega⟩
    obtain ⟨t, hrun, ⟨hcpu, hram, -, hdma⟩, hcycles, haddr, hoam⟩ := runDma_fills hpage hsafe'
    refine ⟨t, hrun, by omega, hdma, hcpu, hram, haddr, fun i hi => ?_⟩
    rw [hoam]
    exact oamFill_read (by simp [pageOffsets_length]) (by simp [pageOffsets_get hi])

end Sys2Proof.Machine
end

section
/-! SUPPORT. The proofs of the encoding's statements (30_encoding): the decoder and the encoder (R200, R220, R222, R226), the
step of a fetched instruction (R225), the addressing modes (R204 to R212), the cycle counts (R215), and the accumulator,
implied, read-modify-write and branch sequences (R203, R213, R214). -/

namespace Sys2Proof

/-! ### The decoder and the encoder (30_encoding R200, R220, R222, R226) -/

/-- The operand bytes of the three formats (30_encoding R200). -/
theorem Instr.operandBytes_cases (i : Instr) :
    i.operandBytes = [] ∨ (∃ b, i.operandBytes = [b]) ∨ ∃ lo hi, i.operandBytes = [lo, hi] := by
  cases i <;> simp [Instr.operandBytes]

section
variable {i : Instr} {b lo hi : Byte} (rest : List Byte)

/-- The table's entry of an opcode without operand bytes is its instruction. -/
theorem decode_encode_bare (h : i.operandBytes = []) : decode (encode i ++ rest) = .instr i rest := by
  cases i <;> first | (cases h; done) | rfl

/-- The table's entry of an opcode with one operand byte makes its instruction. -/
theorem decode_encode_one (h : i.operandBytes = [b]) : decode (encode i ++ rest) = .instr i rest := by
  cases i <;> first | (cases h; done) | rfl

/-- The table's entry of an opcode with two operand bytes makes its instruction. -/
theorem decode_encode_two (h : i.operandBytes = [lo, hi]) : decode (encode i ++ rest) = .instr i rest := by
  cases i <;> first | (cases h; done) | rfl

end

/-- Settles O1: in each of the three formats, the table's entry of the opcode makes the instruction of its operand bytes. -/
theorem decodeInvertsEncode : Obligations.DecodeInvertsEncode := by
  intro i rest
  rcases i.operandBytes_cases with h | ⟨b, h⟩ | ⟨lo, hi, h⟩
  · exact decode_encode_bare rest h
  · exact decode_encode_one rest h
  · exact decode_encode_two rest h

/-- Every instruction the entry makes is encoded as `op` and the operand bytes of the entry's format, which are all
fetched before the instruction's own sequence, but not JSR's last (30_encoding R200; 44_control R372). -/
def OpEntry.EncodedAs (op : Byte) : OpEntry → Prop
  | .bare i => encode i = [op] ∧ Machine.fetchedBytes i = 1
  | .one f => ∀ b, encode (f b) = [op, b] ∧ Machine.fetchedBytes (f b) = 2
  | .two f => ∀ b c, encode (f b c) = [op, b, c] ∧ Machine.fetchedBytes (f b c) = 3
  | .twoLate f => ∀ b c, encode (f b c) = [op, b, c] ∧ Machine.fetchedBytes (f b c) = 2

theorem opTable_encodedAs : ∀ row ∈ opTable, row.2.EncodedAs row.1 := by
  simp only [opTable, opRow0, opRow1, opRow2, opRow3, opRow4, opRow5, opRow6, opRow7, opRow8, opRow9, opRowA, opRowB, opRowC,
    opRowD, opRowE, opRowF, List.cons_append, List.nil_append, List.forall_mem_cons, List.not_mem_nil, false_implies,
    implies_true, and_true]
  repeat' apply And.intro
  all_goals first | rfl | exact fun _ => ⟨rfl, rfl⟩ | exact fun _ _ => ⟨rfl, rfl⟩

theorem mem_of_findOpcode {op : Byte} {e : OpEntry} {rows : List (Byte × OpEntry)} (h : findOpcode op rows = some e) :
    (op, e) ∈ rows := by
  induction rows with
  | nil => cases h
  | cons row rows ih =>
    obtain ⟨k, f⟩ := row
    rw [findOpcode] at h
    split at h
    · next hk => cases h; cases hk; exact List.mem_cons_self
    · exact List.mem_cons_of_mem _ (ih h)

theorem findOpcode_eq_none {op : Byte} {rows : List (Byte × OpEntry)} :
    findOpcode op rows = none ↔ op ∉ rows.map Prod.fst := by
  induction rows with
  | nil => simp [findOpcode]
  | cons row rows ih =>
    obtain ⟨k, f⟩ := row
    by_cases hk : k = op
    · simp [findOpcode, hk]
    · simp [findOpcode, hk, Ne.symm hk, ih]

/-- The table's entry of an opcode byte makes instructions with that opcode. -/
theorem opEntry_encodedAs {op : Byte} {e : OpEntry} (h : opEntry op = some e) : e.EncodedAs op :=
  opTable_encodedAs (op, e) (mem_of_findOpcode h)

/-- What decodes is an opcode byte with an entry, and the entry applied to the bytes after it. -/
theorem decode_eq_instr {bs rest : List Byte} {i : Instr} (h : decode bs = .instr i rest) :
    ∃ op bs' e, bs = op :: bs' ∧ opEntry op = some e ∧ e.apply bs' = .instr i rest := by
  cases bs with
  | nil => cases h
  | cons op bs' =>
    rw [decode] at h
    cases he : opEntry op with
    | none => rw [he] at h; cases h
    | some e => rw [he] at h; exact ⟨op, bs', e, rfl, he, h⟩

/-- An entry's instruction is encoded as the bytes it was made of. -/
theorem OpEntry.EncodedAs.encode_apply {op : Byte} {e : OpEntry} {bs rest : List Byte} {i : Instr} (he : e.EncodedAs op)
    (h : e.apply bs = .instr i rest) : op :: bs = encode i ++ rest := by
  cases e with
  | bare j => cases h; rw [he.1]; rfl
  | one f =>
    match bs, h with
    | b :: bs, h => cases h; rw [(he b).1]; rfl
  | two f | twoLate f =>
    match bs, h with
    | b :: c :: bs, h => cases h; rw [(he b c).1]; rfl

/-- Settles O2: the table's entry of an opcode byte makes instructions encoded as that byte and their operands. -/
theorem decodedBytesAreTheEncoding : Obligations.DecodedBytesAreTheEncoding := by
  intro bs i rest h
  obtain ⟨op, bs', e, rfl, hentry, happly⟩ := decode_eq_instr h
  exact (opEntry_encodedAs hentry).encode_apply happly

/-- Settles O3: `decodeInvertsEncode` at eight instructions, and a byte without a table entry. -/
theorem sampleWordsDecode : Obligations.SampleWordsDecode :=
  ⟨decodeInvertsEncode (.ldaImm 0x05) [], decodeInvertsEncode (.staIndY 0x10) [0xFF],
    decodeInvertsEncode (.sbcAbsX 0x34 0x12) [], decodeInvertsEncode .rorAcc [], decodeInvertsEncode (.jmpInd 0xFF 0x02) [],
    decodeInvertsEncode (.jsr 0x00 0x90) [], decodeInvertsEncode (.bne 0xF8) [], decodeInvertsEncode (.brk 0xEA) [], rfl⟩

/-- The table's keys and the listed bytes are all 256 bytes, each once (30_encoding R220). -/
theorem opcodes_perm_range :
    ((opTable.map Prod.fst ++ Machine.illegalOpcodes).map BitVec.toNat).Perm (List.range 256) := by
  decide +kernel

/-- The listed bytes are those without a table entry (30_encoding R220). -/
theorem mem_illegalOpcodes_iff (op : Byte) : op ∈ Machine.illegalOpcodes ↔ opEntry op = none := by
  have hdisjoint := List.disjoint_of_nodup_append (opcodes_perm_range.nodup_iff.mpr List.nodup_range).of_map
  have hcover : op.toNat ∈ (opTable.map Prod.fst ++ Machine.illegalOpcodes).map BitVec.toNat :=
    opcodes_perm_range.mem_iff.mpr (List.mem_range.mpr op.isLt)
  rw [List.mem_map_of_injective fun _ _ => BitVec.eq_of_toNat_eq, List.mem_append] at hcover
  rw [opEntry, findOpcode_eq_none]
  exact ⟨fun hillegal hkey => hdisjoint hkey hillegal, hcover.resolve_left⟩

end Sys2Proof

namespace Sys2Proof.Machine

/-! ### The step of a fetched instruction (30_encoding R220, R225) -/

/-- A fetch is its read, and PC one further (00_scope R13). -/
theorem fetch_ok {s s1 : State} {b : Byte} (h : memRead s.cpu.pc s = .ok b s1) :
    fetch s = .ok b { s1 with cpu := { s.cpu with pc := s.cpu.pc + 1#16 } } := by
  obtain ⟨-, hcpu, -⟩ := memRead_frame h
  rw [fetch, bind_ok (getCpu_apply s), bind_ok h, bind_ok (setPc_apply _ _), pure_apply, hcpu]

/-- An opcode with a table entry: the operands of its format are fetched. -/
theorem fetchInstr_entry {s t : State} {op : Byte} {e : OpEntry} (h : fetch s = .ok op t) (hentry : opEntry op = some e) :
    fetchInstr s = fetchOperands e t := by
  rw [fetchInstr, bind_ok (getCpu_apply s), bind_ok h, hentry]

/-- An opcode without a table entry: the fault of 30_encoding R220, after the fetch. -/
theorem fetchInstr_illegal {s t : State} {op : Byte} (h : fetch s = .ok op t) (hentry : opEntry op = none) :
    fetchInstr s = .error (.illegalOpcode op s.cpu.pc) { t with fault := some (.illegalOpcode op s.cpu.pc) } := by
  rw [fetchInstr, bind_ok (getCpu_apply s), bind_ok h, hentry]
  rfl

/-- Settles O5: a byte without a table entry raises its fault after the cycle that fetched it. -/
theorem illegalOpcodeStopsTheBlock : Obligations.IllegalOpcodeStopsTheBlock := by
  refine ⟨mem_illegalOpcodes_iff, fun s s1 op hs hop hread => ?_⟩
  obtain ⟨-, -, hcycles, -⟩ := memRead_frame hread
  refine ⟨hcycles, ?_⟩
  rw [step_fetches hs, runInstr, fetchInstr_illegal (fetch_ok hread) ((mem_illegalOpcodes_iff op).mp hop)]
  rfl

/-- The operands of an entry, fetched from plain memory, make the instruction the decoder makes of the bytes there, after a
cycle for each byte fetched. -/
theorem fetchOperands_plain {op : Byte} {e : OpEntry} {s : State} {i : Instr} {rest : List Byte} (he : e.EncodedAs op)
    (hcode1 : holdsCode (s.cpu.pc + 1#16) = true) (hcode2 : holdsCode (s.cpu.pc + 2#16) = true)
    (h : e.apply [readByte s (s.cpu.pc + 1#16), readByte s (s.cpu.pc + 2#16)] = .instr i rest) :
    fetchOperands e (fetchCycle s) = .ok i (fetchCycles (fetchedBytes i) s) := by
  have hpc2 : s.cpu.pc + 1#16 + 1#16 = s.cpu.pc + 2#16 := by bv_omega
  have hfetch1 : fetch (fetchCycle s) = .ok (readByte s (s.cpu.pc + 1#16)) (fetchCycles 2 s) := by
    rw [fetch_plain (by rwa [fetchCycle_pc]), fetchCycle_pc, readByte_plain hcode1 (fetchCycle_ram s) (fetchCycle_board s)]
    rfl
  have hpc : (fetchCycles 2 s).cpu.pc = s.cpu.pc + 2#16 := by simp [fetchCycles, hpc2]
  have hbyte2 : readByte (fetchCycles 2 s) (s.cpu.pc + 2#16) = readByte s (s.cpu.pc + 2#16) :=
    readByte_plain hcode2 (by simp [fetchCycles]) (by simp [fetchCycles])
  cases e with
  | bare j => cases h; rw [he.2]; rfl
  | one f => cases h; rw [fetchOperands, bind_ok hfetch1, (he _).2, pure_apply]
  | two f =>
    cases h
    rw [fetchOperands, bind_ok hfetch1, bind_ok (fetch_plain (by rwa [hpc])), (he _ _).2, hpc, hbyte2]
    rfl
  | twoLate f =>
    cases h
    have hpeek : peekPc (fetchCycles 2 s) = .ok (readByte s (s.cpu.pc + 2#16)) (fetchCycles 2 s) := by
      rw [peekPc, hpc, hbyte2]
    rw [fetchOperands, bind_ok hfetch1, bind_ok hpeek, (he _ _).2, pure_apply]

/-- Fetching from plain memory gives the instruction the decoder makes of the bytes at PC (30_encoding R222, R225). -/
theorem fetchInstr_plain {s : State} {i : Instr} {rest : List Byte} (hcode0 : holdsCode s.cpu.pc = true)
    (hcode1 : holdsCode (s.cpu.pc + 1#16) = true) (hcode2 : holdsCode (s.cpu.pc + 2#16) = true)
    (h : decode [readByte s s.cpu.pc, readByte s (s.cpu.pc + 1#16), readByte s (s.cpu.pc + 2#16)] = .instr i rest) :
    fetchInstr s = .ok i (fetchCycles (fetchedBytes i) s) := by
  obtain ⟨op, bs, e, hbytes, hentry, happly⟩ := decode_eq_instr h
  cases hbytes
  rw [fetchInstr_entry (fetch_plain hcode0) hentry]
  exact fetchOperands_plain (opEntry_encodedAs hentry) hcode1 hcode2 happly

/-- Settles O4: the fetch of plain memory gives the decoded instruction, whose meaning and DMA the step then runs. -/
theorem stepRunsTheDecodedInstruction : Obligations.StepRunsTheDecodedInstruction := by
  intro s i rest hs hcode0 hcode1 hcode2 h
  have hfetch : fetchInstr { s with framePulses := [] } = .ok i (fetchCycles (fetchedBytes i) { s with framePulses := [] }) :=
    fetchInstr_plain hcode0 hcode1 hcode2 h
  rw [step_fetches hs]
  cases hexec : exec i (fetchCycles (fetchedBytes i) { s with framePulses := [] }) with
  | next t => simp only [runInstr, hfetch, hexec]
  | fault f => simp only [runInstr, hfetch, hexec]
  | refused f => simp only [runInstr, hfetch, hexec]

/-! ### The addressing modes (30_encoding R204 to R212) -/

/-- The mode's sequence `m` is the bus reads of `before`, in turn, and then gives the address `ea`. -/
def FormsAddress (m : M Word) (before : List Word) (ea : Word) (s : State) : Prop :=
  m s = (busReads before >>= fun _ => pure ea) s

theorem busReads_append (as bs : List Word) : busReads (as ++ bs) = busReads as >>= fun _ => busReads bs := by
  induction as with
  | nil => rfl
  | cons a as ih => rw [List.cons_append, busReads_cons, busReads_cons, ih, bind_assoc]

/-- A dummy read, and then an address that the registers give: reads leave the registers alone. -/
theorem dummy_formsAddress (a : Word) (ea : Cpu → Word) (s : State) :
    FormsAddress (do dummy a; let r ← getCpu; return ea r) [a] (ea s.cpu) s := by
  rw [FormsAddress, bind_eq, dummy_eq, busReads_cons, bind_eq, bind_eq]
  cases hread : memRead a s with
  | ok b t =>
    obtain ⟨-, hcpu, -⟩ := memRead_frame hread
    simp [bind_eq, hcpu]
  | error r t => rfl

theorem addrZp_formsAddress (a8 : Byte) (s : State) : FormsAddress (addrZp a8) [] (zext16 a8) s := rfl

theorem addrAbs_formsAddress (lo hi : Byte) (s : State) : FormsAddress (addrAbs lo hi) [] (cat16 hi lo) s := rfl

theorem addrZpIdx_formsAddress (idx : Cpu → Byte) (a8 : Byte) (s : State) :
    FormsAddress (addrZpIdx idx a8) [zext16 a8] (zext16 (a8 + idx s.cpu)) s :=
  dummy_formsAddress _ (fun r => zext16 (a8 + idx r)) s

theorem addrIndexedFull_formsAddress (lo hi idx : Byte) (s : State) :
    FormsAddress (addrIndexedFull lo hi idx) [wrongAddr hi lo idx] (indexedAddr (cat16 hi lo) idx) s :=
  dummy_formsAddress _ (fun _ => indexedAddr (cat16 hi lo) idx) s

theorem addrIndexedRead_formsAddress (lo hi idx : Byte) (s : State) :
    FormsAddress (addrIndexedRead lo hi idx) (if crossesPage hi lo idx then [wrongAddr hi lo idx] else [])
      (indexedAddr (cat16 hi lo) idx) s := by
  unfold addrIndexedRead
  split
  · exact addrIndexedFull_formsAddress lo hi idx s
  · rfl

/-- (zp,X): the pointer's two bytes are RAM cells (30_encoding R210). -/
theorem addrIndX_formsAddress (p : Byte) (s : State) :
    FormsAddress (addrIndX p) [zext16 p, zext16 (p + s.cpu.x), zext16 (p + s.cpu.x + 1#8)]
      (cat16 (s.ram.read (p + s.cpu.x + 1#8).toNat) (s.ram.read (p + s.cpu.x).toNat)) s := by
  simp only [FormsAddress, addrIndX, busReads_cons, busReads_nil, bind_eq, dummy_eq, memRead_zext16, getCpu_apply,
    pure_apply, endCycle_cpu, endCycle_ram]

/-- (zp),Y: the pointer's two bytes are RAM cells, and then the sequence is that of the indexed address (30_encoding
R211). -/
theorem pointer_formsAddress {f : Byte → Byte → Byte → M Word} {before : List Word} {ea : Word} {p : Byte} {s : State}
    (h : ∀ u, FormsAddress (f (s.ram.read p.toNat) (s.ram.read (p + 1#8).toNat) s.cpu.y) before ea u) :
    FormsAddress (do
        let lo ← memRead (zext16 p)
        let hi ← memRead (zext16 (p + 1#8))
        let r ← getCpu
        f lo hi r.y) ([zext16 p, zext16 (p + 1#8)] ++ before) ea s := by
  unfold FormsAddress at h ⊢
  rw [busReads_append]
  simp only [busReads_cons, busReads_nil, bind_eq, memRead_zext16, getCpu_apply, endCycle_cpu, endCycle_ram, h]

theorem addrAbsXFull_formsAddress (lo hi : Byte) (s : State) :
    FormsAddress (addrAbsXFull lo hi) [wrongAddr hi lo s.cpu.x] (indexedAddr (cat16 hi lo) s.cpu.x) s :=
  addrIndexedFull_formsAddress lo hi s.cpu.x s

theorem addrAbsYFull_formsAddress (lo hi : Byte) (s : State) :
    FormsAddress (addrAbsYFull lo hi) [wrongAddr hi lo s.cpu.y] (indexedAddr (cat16 hi lo) s.cpu.y) s :=
  addrIndexedFull_formsAddress lo hi s.cpu.y s

theorem addrAbsXRead_formsAddress (lo hi : Byte) (s : State) :
    FormsAddress (addrAbsXRead lo hi) (if crossesPage hi lo s.cpu.x then [wrongAddr hi lo s.cpu.x] else [])
      (indexedAddr (cat16 hi lo) s.cpu.x) s :=
  addrIndexedRead_formsAddress lo hi s.cpu.x s

theorem addrAbsYRead_formsAddress (lo hi : Byte) (s : State) :
    FormsAddress (addrAbsYRead lo hi) (if crossesPage hi lo s.cpu.y then [wrongAddr hi lo s.cpu.y] else [])
      (indexedAddr (cat16 hi lo) s.cpu.y) s :=
  addrIndexedRead_formsAddress lo hi s.cpu.y s

section
variable (p : Byte) (s : State)

theorem addrIndYFull_formsAddress :
    let lo := s.ram.read p.toNat
    let hi := s.ram.read (p + 1#8).toNat
    FormsAddress (addrIndYFull p) ([zext16 p, zext16 (p + 1#8)] ++ [wrongAddr hi lo s.cpu.y])
      (indexedAddr (cat16 hi lo) s.cpu.y) s :=
  pointer_formsAddress (addrIndexedFull_formsAddress _ _ _)

theorem addrIndYRead_formsAddress :
    let lo := s.ram.read p.toNat
    let hi := s.ram.read (p + 1#8).toNat
    FormsAddress (addrIndYRead p)
      ([zext16 p, zext16 (p + 1#8)] ++ if crossesPage hi lo s.cpu.y then [wrongAddr hi lo s.cpu.y] else [])
      (indexedAddr (cat16 hi lo) s.cpu.y) s :=
  pointer_formsAddress (addrIndexedRead_formsAddress _ _ _)

end

/-- What follows an address sequence follows its bus reads, at the address they give. -/
theorem FormsAddress.bind {α : Type} {m : M Word} {before : List Word} {ea : Word} {s : State}
    (h : FormsAddress m before ea s) (f : Word → M α) : (m >>= f) s = (busReads before >>= fun _ => f ea) s := by
  unfold FormsAddress at h
  rw [bind_eq, h, bind_eq, bind_eq]
  cases busReads before s with
  | ok b t => rfl
  | error r t => rfl

/-- An address that is fault-free stays so across a read, which leaves PPUMASK alone. -/
theorem faultFree_memRead {s t : State} {a b : Word} {d : Byte} (h : memRead a s = .ok d t) (hb : faultFree s b) :
    faultFree t b :=
  hb.imp_left (memRead_renderingOff h)

theorem busReads_free {as : List Word} {s : State} (h : ∀ a ∈ as, faultFree s a) : ∃ u, busReads as s = .ok () u := by
  induction as generalizing s with
  | nil => exact ⟨s, rfl⟩
  | cons a as ih =>
    rw [List.forall_mem_cons] at h
    have hread := memRead_ok (readFault_free h.1)
    obtain ⟨u, hu⟩ := ih fun b hb => faultFree_memRead hread (h.2 b hb)
    exact ⟨u, by rw [busReads_cons, bind_ok hread, hu]⟩

theorem faultFree_zext16 (s : State) (b : Byte) : faultFree s (zext16 b) := .inr fun r => by simp

section
variable {i : Instr} {addr : M Word} {before : List Word} {ea : Word} {s : State}

/-- A storing form whose sequence forms its address by reads that do not fault. -/
theorem FormsAddress.storesAt (h : FormsAddress addr before ea s) (hform : storeAddr i = addr)
    (hfree : ∀ a ∈ before, faultFree s a) : storesAt i before ea s := by
  obtain ⟨u, hreads⟩ := busReads_free hfree
  obtain ⟨hcpu, hcycles, -, -, hcells⟩ := busReads_frame hreads
  refine ⟨u, hreads, ?_, hcycles, hcpu, hcells⟩
  rw [hform, h, bind_ok hreads, pure_apply]

/-- A reading form whose sequence forms its address by reads that do not fault. -/
theorem FormsAddress.readsAt (h : FormsAddress addr before ea s) (hform : readOperand i = addr >>= memRead)
    (hfree : ∀ a ∈ before, faultFree s a) : readsAt i before ea s := by
  obtain ⟨u, hreads⟩ := busReads_free hfree
  obtain ⟨hcpu, hcycles, hram, hboard, hcells⟩ := busReads_frame hreads
  have hoperand : readOperand i s = memRead ea u := by rw [hform, h.bind, bind_ok hreads]
  refine ⟨⟨u, hreads, hoperand, hcycles, hcpu, hcells⟩, fun hcode => ?_⟩
  rw [hoperand, memRead_plain hcode, readByte_plain hcode hram hboard]
  exact ⟨_, rfl, by rw [endCycle_cycles, hcycles]⟩

end

theorem cat16_toNat (hi lo : Byte) : (cat16 hi lo).toNat = 256 * hi.toNat + lo.toNat := by
  have hlo : lo.toNat < 2 ^ 8 := lo.isLt
  rw [cat16, BitVec.toNat_append, ← Nat.shiftLeft_add_eq_or_of_lt hlo, Nat.shiftLeft_eq]
  omega

theorem page_toNat (a : Word) : (page a).toNat = a.toNat / 256 := by
  have ha : a.toNat < 2 ^ 16 := a.isLt
  rw [page, BitVec.extractLsb'_toNat, Nat.shiftRight_eq_div_pow]
  omega

/-- A page is crossed exactly when the low byte's sum carries (30_encoding R208, R215). -/
theorem crossesPage_iff (hi lo idx : Byte) : crossesPage hi lo idx = true ↔ ¬ lo.toNat + idx.toNat < 256 := by
  have hhi : hi.toNat < 256 := hi.isLt
  have hlo : lo.toNat < 256 := lo.isLt
  have hidx : idx.toNat < 256 := idx.isLt
  have hindex : (zext16 idx).toNat = idx.toNat := by rw [zext16, BitVec.toNat_setWidth]; omega
  rw [crossesPage, decide_eq_true_iff, ne_eq, BitVec.toNat_inj.symm, page_toNat, indexedAddr, BitVec.toNat_add, cat16_toNat,
    hindex]
  omega

section
variable {i : Instr} {addr : M Word} {before : List Word} {hi lo idx : Byte} {s : State}

/-- An indexed form that stores reads the address before the carry always (30_encoding R208, R211). -/
theorem storesAt_indexed (h : FormsAddress addr (before ++ [wrongAddr hi lo idx]) (indexedAddr (cat16 hi lo) idx) s)
    (hform : storeAddr i = addr) (hbefore : ∀ a ∈ before, faultFree s a) (hwrong : faultFree s (wrongAddr hi lo idx)) :
    storesAt i (before ++ [wrongAddr hi lo idx]) (indexedAddr (cat16 hi lo) idx) s :=
  h.storesAt hform (List.forall_mem_append.mpr ⟨hbefore, List.forall_mem_singleton.mpr hwrong⟩)

/-- An indexed form that reads, reads the address before the carry only when a page is crossed (30_encoding R208, R211). -/
theorem readsAt_indexed
    (h : FormsAddress addr (before ++ if crossesPage hi lo idx then [wrongAddr hi lo idx] else [])
      (indexedAddr (cat16 hi lo) idx) s)
    (hform : readOperand i = addr >>= memRead) (hbefore : ∀ a ∈ before, faultFree s a)
    (hwrong : lo.toNat + idx.toNat < 256 ∨ faultFree s (wrongAddr hi lo idx)) :
    readsAt i (if lo.toNat + idx.toNat < 256 then before else before ++ [wrongAddr hi lo idx])
      (indexedAddr (cat16 hi lo) idx) s := by
  by_cases hsame : lo.toNat + idx.toNat < 256
  · rw [if_neg (mt (crossesPage_iff _ _ _).mp (not_not_intro hsame)), List.append_nil] at h
    rw [if_pos hsame]
    exact h.readsAt hform hbefore
  · rw [if_pos ((crossesPage_iff _ _ _).mpr hsame)] at h
    rw [if_neg hsame]
    exact h.readsAt hform (List.forall_mem_append.mpr
      ⟨hbefore, List.forall_mem_singleton.mpr (hwrong.resolve_left hsame)⟩)

end

section
variable {i : Instr} {b lo hi : Byte}

theorem readOperand_imm (hb : i.operandBytes = [b]) (hmode : i.mode = .imm) : readOperand i = pure b := by
  simp only [readOperand, hmode, hb]

theorem forms_zp (hb : i.operandBytes = [b]) (hmode : i.mode = .zp) :
    storeAddr i = addrZp b ∧ readOperand i = addrZp b >>= memRead := by
  simp only [storeAddr, readOperand, hmode, hb, and_self]

theorem forms_zpx (hb : i.operandBytes = [b]) (hmode : i.mode = .zpx) :
    storeAddr i = addrZpX b ∧ readOperand i = addrZpX b >>= memRead := by
  simp only [storeAddr, readOperand, hmode, hb, and_self]

theorem forms_zpy (hb : i.operandBytes = [b]) (hmode : i.mode = .zpy) :
    storeAddr i = addrZpY b ∧ readOperand i = addrZpY b >>= memRead := by
  simp only [storeAddr, readOperand, hmode, hb, and_self]

theorem forms_indx (hb : i.operandBytes = [b]) (hmode : i.mode = .indx) :
    storeAddr i = addrIndX b ∧ readOperand i = addrIndX b >>= memRead := by
  simp only [storeAddr, readOperand, hmode, hb, and_self]

theorem forms_indy (hb : i.operandBytes = [b]) (hmode : i.mode = .indy) :
    storeAddr i = addrIndYFull b ∧ readOperand i = addrIndYRead b >>= memRead := by
  simp only [storeAddr, readOperand, hmode, hb, and_self]

theorem forms_abs (hb : i.operandBytes = [lo, hi]) (hmode : i.mode = .abs) :
    storeAddr i = addrAbs lo hi ∧ readOperand i = addrAbs lo hi >>= memRead := by
  simp only [storeAddr, readOperand, hmode, hb, and_self]

theorem forms_absx (hb : i.operandBytes = [lo, hi]) (hmode : i.mode = .absx) :
    storeAddr i = addrAbsXFull lo hi ∧ readOperand i = addrAbsXRead lo hi >>= memRead := by
  simp only [storeAddr, readOperand, hmode, hb, and_self]

theorem forms_absy (hb : i.operandBytes = [lo, hi]) (hmode : i.mode = .absy) :
    storeAddr i = addrAbsYFull lo hi ∧ readOperand i = addrAbsYRead lo hi >>= memRead := by
  simp only [storeAddr, readOperand, hmode, hb, and_self]

end

/-- A form whose operand is a RAM cell reads that cell's byte. -/
theorem readsAt_ram {i : Instr} {before : List Word} {b : Byte} {s : State} (h : readsAt i before (zext16 b) s) :
    ∃ t, readOperand i s = .ok (s.ram.read b.toNat) t ∧ t.cycles = s.cycles + before.length + 1 := by
  rw [← readByte_ram (decodeAddr_zext16 b)]
  exact h.2 (by rw [holdsCode, decodeAddr_zext16])

/-- A page-zero form stores to and reads a RAM cell, after page-zero reads (30_encoding R205 to R207). -/
theorem pageZero_form {i : Instr} {addr : M Word} {before : List Byte} {b : Byte} {s : State}
    (h : FormsAddress addr (before.map zext16) (zext16 b) s) (hform : storeAddr i = addr ∧ readOperand i = addr >>= memRead) :
    storesAt i (before.map zext16) (zext16 b) s ∧ readsAt i (before.map zext16) (zext16 b) s ∧
      ∃ t, readOperand i s = .ok (s.ram.read b.toNat) t ∧ t.cycles = s.cycles + (before.map zext16).length + 1 := by
  have hfree : ∀ a ∈ before.map zext16, faultFree s a := List.forall_mem_map.mpr fun c _ => faultFree_zext16 s c
  have hreads := h.readsAt hform.2 hfree
  exact ⟨h.storesAt hform.1 hfree, hreads, readsAt_ram hreads⟩

/-- Settles O24: each mode's sequence is its bus reads and its address, the sums of page zero being sums of bytes. -/
theorem oneByteOperandFormsReadAndStore : Obligations.OneByteOperandFormsReadAndStore := by
  intro i s a8 hb
  have hat16 : ∀ b : Byte, BitVec.ofNat 16 b.toNat = zext16 b := fun b => BitVec.ofNat_toNat 16 b
  have hx : (a8.toNat + s.cpu.x.toNat) % 256 = (a8 + s.cpu.x).toNat := (BitVec.toNat_add a8 s.cpu.x).symm
  have hx1 : (a8.toNat + s.cpu.x.toNat + 1) % 256 = (a8 + s.cpu.x + 1#8).toNat := by bv_omega
  have hy : (a8.toNat + s.cpu.y.toNat) % 256 = (a8 + s.cpu.y).toNat := (BitVec.toNat_add a8 s.cpu.y).symm
  have h1 : (a8.toNat + 1) % 256 = (a8 + 1#8).toNat := (BitVec.toNat_add a8 1#8).symm
  simp only [hx, hx1, hy, h1, hat16]
  refine ⟨fun hmode => ?_, fun hmode => ?_, fun hmode => ?_, fun hmode => ?_, fun hmode => ?_, fun hmode => ?_⟩
  · rw [readOperand_imm hb hmode, pure_apply]
  · exact pageZero_form (before := []) (addrZp_formsAddress a8 s) (forms_zp hb hmode)
  · exact pageZero_form (before := [a8]) (addrZpIdx_formsAddress Cpu.x a8 s) (forms_zpx hb hmode)
  · exact pageZero_form (before := [a8]) (addrZpIdx_formsAddress Cpu.y a8 s) (forms_zpy hb hmode)
  · obtain ⟨hstore, hread⟩ := forms_indx hb hmode
    have h := addrIndX_formsAddress a8 s
    have hfree : ∀ a ∈ [a8, a8 + s.cpu.x, a8 + s.cpu.x + 1#8].map zext16, faultFree s a :=
      List.forall_mem_map.mpr fun c _ => faultFree_zext16 s c
    exact ⟨h.storesAt hstore hfree, h.readsAt hread hfree⟩
  · obtain ⟨hstore, hread⟩ := forms_indy hb hmode
    have hfree : ∀ a ∈ [a8, a8 + 1#8].map zext16, faultFree s a :=
      List.forall_mem_map.mpr fun c _ => faultFree_zext16 s c
    exact ⟨storesAt_indexed (addrIndYFull_formsAddress a8 s) hstore hfree,
      readsAt_indexed (addrIndYRead_formsAddress a8 s) hread hfree⟩

/-- Settles O25: each absolute mode's sequence is its bus reads and its address. -/
theorem absoluteFormsReadAndStore : Obligations.AbsoluteFormsReadAndStore := by
  intro i s lo8 hi8 hb
  have hnone : ∀ a ∈ ([] : List Word), faultFree s a := List.forall_mem_nil _
  refine ⟨fun hmode => ?_, fun hmode => ?_, fun hmode => ?_⟩
  · obtain ⟨hstore, hread⟩ := forms_abs hb hmode
    exact ⟨(addrAbs_formsAddress lo8 hi8 s).storesAt hstore hnone, (addrAbs_formsAddress lo8 hi8 s).readsAt hread hnone⟩
  · obtain ⟨hstore, hread⟩ := forms_absx hb hmode
    exact ⟨storesAt_indexed (addrAbsXFull_formsAddress lo8 hi8 s) hstore hnone,
      readsAt_indexed (addrAbsXRead_formsAddress lo8 hi8 s) hread hnone⟩
  · obtain ⟨hstore, hread⟩ := forms_absy hb hmode
    exact ⟨storesAt_indexed (addrAbsYFull_formsAddress lo8 hi8 s) hstore hnone,
      readsAt_indexed (addrAbsYRead_formsAddress lo8 hi8 s) hread hnone⟩

/-! ### Accumulator and implied forms (30_encoding R203) -/

/-- The old carry as ROL shifts it in (43_incdec_shift R358). -/
theorem rotateIn_low (c : Bool) : (BitVec.ofBool c).setWidth 8 = if c then 0x01#8 else 0x00#8 := by
  cases c <;> rfl

/-- The old carry as ROR shifts it in (43_incdec_shift R359). -/
theorem rotateIn_high (c : Bool) : (BitVec.ofBool c).setWidth 8 <<< 7 = if c then 0x80#8 else 0x00#8 := by
  cases c <;> rfl

/-- An implied-mode instruction changes the registers by its effect after the dummy read at PC. -/
theorem implied_next {s s1 : State} {b : Byte} (f : Cpu → Cpu) (h : memRead s.cpu.pc s = .ok b s1) :
    outcome (implied f) s = .next { s1 with cpu := f s.cpu } := by
  obtain ⟨-, hcpu, -⟩ := memRead_frame h
  have hdummy : dummyPc s = .ok () s1 := by rw [dummyPc_apply, h]
  exact outcome_ok (by rw [implied, bind_ok hdummy, modifyCpu_apply, hcpu])

/-- Settles O43: each is the implied sequence with its effect. -/
theorem flagInstructionsChangeTheirFlag : Obligations.FlagInstructionsChangeTheirFlag := by
  intro s s1 b h
  obtain ⟨-, -, hcycles, -⟩ := memRead_frame h
  exact ⟨rfl, hcycles, implied_next _ h, implied_next _ h, implied_next _ h, implied_next _ h, implied_next _ h,
    implied_next _ h, implied_next _ h, implied_next _ h⟩

/-- ROL's result and flags as its rule writes them (43_incdec_shift R358). -/
theorem rolFun_eq (p : Flags) (m : Byte) :
    rolFun p m = (m <<< 1 ||| if p.c then 0x01#8 else 0x00#8,
      setNZ (m <<< 1 ||| if p.c then 0x01#8 else 0x00#8) { p with c := m.getLsbD 7 }) := by
  simp only [rolFun, rotateIn_low]

/-- ROR's result and flags as its rule writes them (43_incdec_shift R359). -/
theorem rorFun_eq (p : Flags) (m : Byte) :
    rorFun p m = (m >>> 1 ||| if p.c then 0x80#8 else 0x00#8,
      setNZ (m >>> 1 ||| if p.c then 0x80#8 else 0x00#8) { p with c := m.getLsbD 0 }) := by
  simp only [rorFun, rotateIn_high]

/-- An accumulator form puts its function of A in A, with the function's flags, after the dummy read at PC. -/
theorem accumulator_next {s s1 : State} {b r : Byte} {p : Flags} {f : RmwFun} (h : memRead s.cpu.pc s = .ok b s1)
    (hf : f s.cpu.p s.cpu.a = (r, p)) : outcome (accumulator f) s = .next { s1 with cpu := { s.cpu with a := r, p := p } } := by
  rw [accumulator, implied_next _ h, hf]

/-- Settles O36: each is the accumulator sequence with its function. -/
theorem accumulatorShiftsActOnA : Obligations.AccumulatorShiftsActOnA := by
  intro s s1 b h
  exact ⟨rfl, accumulator_next h rfl, accumulator_next h rfl, accumulator_next h (rolFun_eq _ _),
    accumulator_next h (rorFun_eq _ _)⟩

/-! ### The read-modify-write class (30_encoding R214) -/

/-- A read-modify-write instruction whose accesses complete: the operand written back, then the function's result, then the
function's flags set. -/
theorem rmw_next {i : Instr} {s s1 s2 s3 s4 : State} {ea : Word} {m r : Byte} {p : Flags} (hclass : opClass i = .rmw)
    (haddr : storeAddr i s = .ok ea s1) (hread : memRead ea s1 = .ok m s2) (hback : memWrite ea m s2 = .ok () s3)
    (hresult : memWrite ea r s3 = .ok () s4) (hf : rmwEffect i s.cpu.p m = (r, p)) :
    exec i s = .next { s4 with cpu := { s.cpu with p := p } } := by
  obtain ⟨hcpu1, -⟩ := Keeps.storeAddr keepsCpuAndCells_read i s ea s1 haddr
  obtain ⟨-, hcpu2, -⟩ := memRead_frame hread
  obtain ⟨hcpu3, -⟩ := memWrite_frame hback
  obtain ⟨hcpu4, -⟩ := memWrite_frame hresult
  have hp3 : rmwEffect i s3.cpu.p m = (r, p) := by rw [hcpu3, hcpu2, hcpu1, hf]
  have hp4 : rmwEffect i s4.cpu.p m = (r, p) := by rw [hcpu4, hp3]
  rw [exec_rmw i s hclass]
  refine outcome_ok (u := ()) ?_
  rw [rmwClass, bind_ok haddr, bind_ok hread, bind_ok hback, bind_ok (getCpu_apply s3), hp3, bind_ok hresult,
    modifyCpu_apply, hp4, hcpu4, hcpu3, hcpu2, hcpu1]

/-- Settles O35: the function is the mnemonic's, and each access changes the cell it stores to alone. -/
theorem rmwWritesBackThenTheResult : Obligations.RmwWritesBackThenTheResult := by
  intro i s s1 s2 s3 s4 ea m r hclass haddr hread hback hresult
  have next : ∀ {p}, rmwEffect i s.cpu.p m = (r, p) → exec i s = .next { s4 with cpu := { s.cpu with p := p } } :=
    rmw_next hclass haddr hread hback hresult
  refine ⟨fun hname hr => ?_, fun hname hr => ?_, fun hname hr => ?_, fun hname hr => ?_, fun hname hr => ?_,
    fun hname hr => ?_, fun l hback' hresult' => ?_⟩
  · exact next (by simp only [rmwEffect, hname, hr]; rfl)
  · exact next (by simp only [rmwEffect, hname, hr]; rfl)
  · exact next (by simp only [rmwEffect, hname, hr]; rfl)
  · exact next (by simp only [rmwEffect, hname, hr]; rfl)
  · exact next (by simp only [rmwEffect, hname, hr]; exact rolFun_eq _ _)
  · exact next (by simp only [rmwEffect, hname, hr]; exact rorFun_eq _ _)
  · obtain ⟨-, hcells1⟩ := Keeps.storeAddr keepsCpuAndCells_read i s ea s1 haddr
    obtain ⟨-, -, -, -, -, -, -, -, -, hcells2, -⟩ := memRead_frame hread
    obtain ⟨-, -, -, -, -, -, hcells3, -⟩ := memWrite_frame hback
    obtain ⟨-, -, -, -, -, -, hcells4, -⟩ := memWrite_frame hresult
    rw [hcells4 l hresult', hcells3 l hback', hcells2, hcells1]

/-! ### Branches (30_encoding R213) -/

/-- The bus reads of a taken branch: the byte after it, and on another page the target on the old page (30_encoding
R213). -/
def branchReads (next target : Word) : List Word :=
  next :: if page target = page next then [] else [cat16 (page next) (lowByte target)]

theorem takeBranch_eq (next target : Word) :
    takeBranch next target = busReads (branchReads next target) >>= fun _ => setPc target := by
  unfold takeBranch branchFixPage branchReads
  split <;> simp [dummy, busReads]

theorem branchReads_length (next target : Word) :
    (branchReads next target).length = if page target = page next then 1 else 2 := by
  unfold branchReads
  split <;> rfl

section
variable {i : Instr} {s : State} {off : Byte}

theorem exec_branch_not_taken (hclass : opClass i = .branch) (htaken : branchTaken s.cpu.p i = false) :
    exec i s = .next s := by
  obtain ⟨off, hexec, -, -⟩ := exec_branch i s hclass
  rw [hexec]
  refine outcome_ok (u := ()) ?_
  rw [branch, bind_ok (getCpu_apply s), htaken]
  rfl

theorem exec_branch_taken (hclass : opClass i = .branch) (hoff : i.operandBytes = [off])
    (htaken : branchTaken s.cpu.p i = true) :
    exec i s = outcome (busReads (branchReads s.cpu.pc (s.cpu.pc + sext16 off)) >>= fun _ =>
      setPc (s.cpu.pc + sext16 off)) s := by
  obtain ⟨off', hexec, hoff', -⟩ := exec_branch i s hclass
  obtain rfl : off = off' := by rw [hoff] at hoff'; injection hoff'
  rw [hexec]
  refine outcome_congr ?_
  rw [branch, bind_ok (getCpu_apply s), if_pos htaken, takeBranch_eq]

end

theorem page_cat16 (hi lo : Byte) : page (cat16 hi lo) = hi := by
  have hlo : lo.toNat < 256 := lo.isLt
  rw [← BitVec.toNat_inj, page_toNat, cat16_toNat]
  omega

/-- An address that selects a PPU register lies in the window 0x2000 to 0x3FFF (20_memory R105). -/
theorem decodeAddr_eq_ppu {a : Word} {r : PpuReg} (h : decodeAddr a = .ppu r) : 0x2000 ≤ a.toNat ∧ a.toNat ≤ 0x3FFF := by
  unfold decodeAddr at h
  split at h
  · cases h
  · split at h
    · omega
    · repeat' split at h
      all_goals cases h

/-- No access in a page outside 0x20 to 0x3F faults, and with rendering disabled none does (20_memory R133). -/
theorem faultFree_of_page {s : State} {a : Word} (h : s.renderingOff ∨ (page a).toNat < 0x20 ∨ 0x40 ≤ (page a).toNat) :
    faultFree s a := by
  rw [page_toNat] at h
  refine h.imp_right fun hpage r hr => ?_
  obtain ⟨hlow, hhigh⟩ := decodeAddr_eq_ppu hr
  omega

/-- A taken branch reads in the page of the byte after it alone. -/
theorem branchReads_page (next target : Word) : ∀ a ∈ branchReads next target, page a = page next := by
  unfold branchReads
  split
  · simp
  · simp [page_cat16]

/-- The rows of the branches: encoding, condition (44_control R374 to R381). -/
theorem branches_mem {s : State} {off8 op : Byte} {i : Instr} {taken : Bool}
    (h : (op, i, taken) ∈ [(0x90#8, Instr.bcc off8, !s.cpu.p.c), (0xB0#8, .bcs off8, s.cpu.p.c),
      (0xF0#8, .beq off8, s.cpu.p.z), (0xD0#8, .bne off8, !s.cpu.p.z), (0x30#8, .bmi off8, s.cpu.p.n),
      (0x10#8, .bpl off8, !s.cpu.p.n), (0x50#8, .bvc off8, !s.cpu.p.v), (0x70#8, .bvs off8, s.cpu.p.v)]) :
    i.opcode = op ∧ i.operandBytes = [off8] ∧ opClass i = .branch ∧ branchTaken s.cpu.p i = taken := by
  simp only [List.mem_cons, List.not_mem_nil, or_false, Prod.mk.injEq] at h
  rcases h with ⟨rfl, rfl, rfl⟩ | ⟨rfl, rfl, rfl⟩ | ⟨rfl, rfl, rfl⟩ | ⟨rfl, rfl, rfl⟩ | ⟨rfl, rfl, rfl⟩ | ⟨rfl, rfl, rfl⟩ |
    ⟨rfl, rfl, rfl⟩ | ⟨rfl, rfl, rfl⟩ <;> exact ⟨rfl, rfl, rfl, rfl⟩

/-- Settles O37: a taken branch is its bus reads, all in PC's page, and the jump. -/
theorem branchesFollowTheirFlag : Obligations.BranchesFollowTheirFlag := by
  intro s off8 op i taken h
  obtain ⟨hopcode, hoff, hclass, rfl⟩ := branches_mem h
  refine ⟨by rw [encode, hopcode, hoff], exec_branch_not_taken hclass, fun htaken hpage => ?_⟩
  have hfree : ∀ a ∈ branchReads s.cpu.pc (s.cpu.pc + sext16 off8), faultFree s a := fun a ha =>
    faultFree_of_page (by rwa [branchReads_page _ _ a ha])
  obtain ⟨u, hreads⟩ := busReads_free hfree
  obtain ⟨hcpu, hcycles, -, -, hcells⟩ := busReads_frame hreads
  refine ⟨_, (exec_branch_taken hclass hoff htaken).trans (outcome_ok (bind_ok hreads)), ?_, ?_, fun l => ?_⟩
  · rw [hcpu]
  · rw [hcycles, branchReads_length]
  · rw [← hcells l]
    cases l <;> rfl

/-! ### Cycle counts (30_encoding R215, 70_reset_and_hazards R735) -/

section
variable {α β : Type} {k n : Nat}

/-- Work that takes `n` cycles whenever it completes. -/
def Takes (n : Nat) (m : M α) : Prop := ∀ s a t, m s = .ok a t → t.cycles = s.cycles + n

theorem Takes.bind {m : M α} {f : α → M β} (hm : Takes k m) (hf : ∀ a, Takes n (f a)) : Takes (k + n) (m >>= f) := by
  intro s b t h
  obtain ⟨a, u, h1, h2⟩ := bind_eq_ok h
  rw [hf a _ _ _ h2, hm _ _ _ h1, Nat.add_assoc]

theorem Takes.getCpu : Takes 0 getCpu := by intro s a t h; cases h; rfl

theorem Takes.modifyCpu (f : Cpu → Cpu) : Takes 0 (modifyCpu f) := by intro s a t h; cases h; rfl

theorem Takes.memRead (a : Word) : Takes 1 (memRead a) := by
  intro s b t h
  obtain ⟨-, -, hcycles, -⟩ := memRead_frame h
  exact hcycles

theorem Takes.memWrite (a : Word) (d : Byte) : Takes 1 (memWrite a d) := by
  intro s u t h
  obtain ⟨-, hcycles, -⟩ := memWrite_frame h
  exact hcycles

theorem Takes.busReads (as : List Word) : Takes as.length (busReads as) := by
  intro s u t h
  obtain ⟨-, hcycles, -⟩ := busReads_frame h
  exact hcycles

theorem Takes.pure (a : α) : Takes 0 (pure a : M α) := by intro s b t h; cases h; rfl

theorem Takes.dummy (a : Word) : Takes 1 (dummy a) := .bind (.memRead a) fun _ => .pure _

theorem Takes.dummyPc : Takes 1 dummyPc := .bind (k := 0) .getCpu fun _ => .dummy _

theorem Takes.dummyStack : Takes 1 dummyStack := .bind (k := 0) .getCpu fun _ => .dummy _

theorem Takes.push (v : Byte) : Takes 1 (push v) := .bind (k := 0) .getCpu fun _ => .bind (.memWrite _ _) fun _ => .modifyCpu _

theorem Takes.pull : Takes 1 pull := .bind (k := 0) (.modifyCpu _) fun _ => .bind (k := 0) .getCpu fun _ => .memRead _

theorem Takes.implied (f : Cpu → Cpu) : Takes 1 (implied f) := .bind .dummyPc fun _ => .modifyCpu _

theorem Takes.writeClass (r : Cpu → Byte) {addr : M Word} (h : Takes n addr) : Takes (n + 1) (writeClass r addr) :=
  .bind h fun _ => .bind (k := 0) .getCpu fun _ => .memWrite _ _

theorem Takes.rmwClass (f : RmwFun) {addr : M Word} (h : Takes n addr) : Takes (n + 3) (rmwClass f addr) :=
  .bind h fun _ => .bind (n := 2) (.memRead _) fun _ => .bind (n := 1) (.memWrite _ _) fun _ =>
    .bind (k := 0) .getCpu fun _ => .bind (.memWrite _ _) fun _ => .modifyCpu _

theorem Takes.jumpVector (vec : Word) : Takes 2 (jumpVector vec) :=
  .bind (.memRead _) fun _ => .bind (.memRead _) fun _ => .modifyCpu _

theorem Takes.takeException (b : Bool) (vec : Word) : Takes 5 (takeException b vec) :=
  .bind (k := 0) .getCpu fun _ => .bind (n := 4) (.push _) fun _ => .bind (n := 3) (.push _) fun _ =>
    .bind (n := 2) (.push _) fun _ => .bind (k := 0) (.modifyCpu _) fun _ => .jumpVector vec

theorem Takes.returnFromException : Takes 3 returnFromException :=
  .bind (n := 2) .pull fun _ => .bind (k := 0) (.modifyCpu _) fun _ => .bind .pull fun _ => .bind .pull fun _ => .modifyCpu _

end

/-- The bus reads before the access of a storing form (30_encoding R205 to R212). -/
def storeReads : AddrMode → Nat
  | .zpx | .zpy | .absx | .absy => 1
  | .indx | .indy => 3
  | _ => 0

/-- The cycles of a reading form that crosses no page, its access included (30_encoding R204 to R212). -/
def readCycles : AddrMode → Nat
  | .zp | .abs | .absx | .absy => 1
  | .zpx | .zpy => 2
  | .indy => 3
  | .indx => 4
  | _ => 0

/-- The cycles of an instruction's own sequence by its class, a crossed page and a taken branch apart (30_encoding R203,
R213, R214). The classes `stack` and `control` have sequences of their own. -/
def classCycles : OpClass → AddrMode → Nat
  | .read, mode => readCycles mode
  | .write, mode => storeReads mode + 1
  | .rmw, mode => storeReads mode + 3
  | .acc, _ | .implied, _ => 1
  | _, _ => 0

/-- The table's count is a cycle for each fetched byte and those of the class (70_reset_and_hazards R735). -/
theorem baseCycles_of_class {i : Instr} {c : OpClass} (h : opClass i = c) (hstack : c ≠ .stack) (hcontrol : c ≠ .control) :
    baseCycles i = fetchedBytes i + classCycles c i.mode := by
  subst h
  cases i <;> first | rfl | exact absurd rfl hstack | exact absurd rfl hcontrol

/-- Only a read and a branch take more than the table's count. -/
theorem extraCycles_eq_zero {i : Instr} (s : State) (hread : opClass i ≠ .read) (hbranch : opClass i ≠ .branch) :
    extraCycles i s = 0 := by
  unfold extraCycles
  split
  case h_5 => rfl
  case h_4 h _ => exact absurd h hbranch
  all_goals exact absurd ‹_› hread

/-- The forms of the storing classes (30_encoding R214). -/
theorem store_forms {i : Instr} (h : opClass i = .write ∨ opClass i = .rmw) :
    (∃ b, i.operandBytes = [b] ∧ (i.mode = .zp ∨ i.mode = .zpx ∨ i.mode = .zpy ∨ i.mode = .indx ∨ i.mode = .indy)) ∨
    ∃ lo hi, i.operandBytes = [lo, hi] ∧ (i.mode = .abs ∨ i.mode = .absx ∨ i.mode = .absy) := by
  cases i <;> first | (rcases h with h | h <;> cases h; done) | simp [Instr.operandBytes, Instr.mode]

/-- The forms of the read class (30_encoding R214). -/
theorem read_forms {i : Instr} (h : opClass i = .read) :
    (∃ b, i.operandBytes = [b] ∧
      (i.mode = .imm ∨ i.mode = .zp ∨ i.mode = .zpx ∨ i.mode = .zpy ∨ i.mode = .indx ∨ i.mode = .indy)) ∨
    ∃ lo hi, i.operandBytes = [lo, hi] ∧ (i.mode = .abs ∨ i.mode = .absx ∨ i.mode = .absy) := by
  cases i <;> first | (cases h; done) | simp [Instr.operandBytes, Instr.mode]

/-- The address of a storing form takes its bus reads. -/
theorem Takes.storeAddr {i : Instr} (h : opClass i = .write ∨ opClass i = .rmw) :
    Takes (storeReads i.mode) (storeAddr i) := by
  have key : ∀ {addr : M Word} {before : State → List Word} {ea : State → Word},
      Machine.storeAddr i = addr → (∀ s, FormsAddress addr (before s) (ea s) s) →
      (∀ s, (before s).length = storeReads i.mode) → Takes (storeReads i.mode) (Machine.storeAddr i) := by
    intro addr before ea hform haddr hlength s a t hs
    rw [hform, haddr s] at hs
    rw [← hlength s]
    exact (Takes.busReads _).bind (fun _ => .pure _) _ _ _ hs
  rcases store_forms h with ⟨b, hb, hmode | hmode | hmode | hmode | hmode⟩ | ⟨lo, hi, hb, hmode | hmode | hmode⟩
  · exact key (forms_zp hb hmode).1 (addrZp_formsAddress b) fun _ => by rw [hmode]; rfl
  · exact key (forms_zpx hb hmode).1 (addrZpIdx_formsAddress Cpu.x b) fun _ => by rw [hmode]; rfl
  · exact key (forms_zpy hb hmode).1 (addrZpIdx_formsAddress Cpu.y b) fun _ => by rw [hmode]; rfl
  · exact key (forms_indx hb hmode).1 (addrIndX_formsAddress b) fun _ => by rw [hmode]; rfl
  · exact key (forms_indy hb hmode).1 (addrIndYFull_formsAddress b) fun _ => by rw [hmode]; rfl
  · exact key (forms_abs hb hmode).1 (addrAbs_formsAddress lo hi) fun _ => by rw [hmode]; rfl
  · exact key (forms_absx hb hmode).1 (addrAbsXFull_formsAddress lo hi) fun _ => by rw [hmode]; rfl
  · exact key (forms_absy hb hmode).1 (addrAbsYFull_formsAddress lo hi) fun _ => by rw [hmode]; rfl

/-- The operand of a reading form takes the cycles of its mode, and one more for a crossed page (30_encoding R215). -/
theorem readOperand_cycles {i : Instr} {s t : State} {m : Byte} (hclass : opClass i = .read)
    (h : readOperand i s = .ok m t) : t.cycles = s.cycles + (readCycles i.mode + extraCycles i s) := by
  have key : ∀ {addr : M Word} {before : List Word} {ea : Word}, FormsAddress addr before ea s →
      readOperand i = addr >>= memRead → before.length + 1 = readCycles i.mode + extraCycles i s →
      t.cycles = s.cycles + (readCycles i.mode + extraCycles i s) := by
    intro addr before ea haddr hform hlength
    rw [hform, haddr.bind] at h
    rw [← hlength]
    exact (Takes.busReads _).bind (fun _ => .memRead _) _ _ _ h
  rcases read_forms hclass with ⟨b, hb, hmode | hmode | hmode | hmode | hmode | hmode⟩ | ⟨lo, hi, hb, hmode | hmode | hmode⟩
  · rw [readOperand_imm hb hmode] at h
    cases h
    simp only [extraCycles, hclass, hb, hmode]
    rfl
  · exact key (addrZp_formsAddress b s) (forms_zp hb hmode).2 (by simp only [extraCycles, hclass, hb, hmode]; rfl)
  · exact key (addrZpIdx_formsAddress Cpu.x b s) (forms_zpx hb hmode).2 (by simp only [extraCycles, hclass, hb, hmode]; rfl)
  · exact key (addrZpIdx_formsAddress Cpu.y b s) (forms_zpy hb hmode).2 (by simp only [extraCycles, hclass, hb, hmode]; rfl)
  · exact key (addrIndX_formsAddress b s) (forms_indx hb hmode).2 (by simp only [extraCycles, hclass, hb, hmode]; rfl)
  · exact key (addrIndYRead_formsAddress b s) (forms_indy hb hmode).2 (by
      simp only [extraCycles, hclass, hb, hmode]; split <;> rfl)
  · exact key (addrAbs_formsAddress lo hi s) (forms_abs hb hmode).2 (by simp only [extraCycles, hclass, hb, hmode]; rfl)
  · exact key (addrAbsXRead_formsAddress lo hi s) (forms_absx hb hmode).2 (by
      simp only [extraCycles, hclass, hb, hmode]; split <;> rfl)
  · exact key (addrAbsYRead_formsAddress lo hi s) (forms_absy hb hmode).2 (by
      simp only [extraCycles, hclass, hb, hmode]; split <;> rfl)

/-- A read-class instruction takes the cycles of its operand. -/
theorem exec_read_cycles {i : Instr} {s t : State} (hclass : opClass i = .read) (h : exec i s = .next t) :
    t.cycles = s.cycles + (readCycles i.mode + extraCycles i s) := by
  rw [exec_read i s hclass] at h
  obtain ⟨m, u, hoperand, heffect⟩ := bind_eq_ok (outcome_eq_next h)
  exact (Takes.modifyCpu _ _ _ _ heffect).trans (readOperand_cycles hclass hoperand)

/-- A branch takes no cycle of its own when it is not taken, and one or two when it is (30_encoding R213). -/
theorem exec_branch_cycles {i : Instr} {s t : State} (hclass : opClass i = .branch) (h : exec i s = .next t) :
    t.cycles = s.cycles + extraCycles i s := by
  obtain ⟨off, -, hoff, hmode⟩ := exec_branch i s hclass
  simp only [extraCycles, hclass, hmode, hoff]
  split
  · next htaken =>
    rw [exec_branch_taken hclass hoff htaken] at h
    rw [← branchReads_length]
    exact (Takes.busReads _).bind (fun _ => .modifyCpu _) _ _ _ (outcome_eq_next h)
  · next htaken =>
    rw [exec_branch_not_taken hclass (Bool.not_eq_true _ ▸ htaken)] at h
    cases h
    rfl

/-- An instruction outside the read and branch classes takes the table's cycles. -/
theorem exec_takes {i : Instr} {s t : State} (hread : opClass i ≠ .read) (hbranch : opClass i ≠ .branch)
    (h : exec i s = .next t) : t.cycles + fetchedBytes i = s.cycles + baseCycles i := by
  have key : ∀ {n : Nat} {m : M Unit}, Takes n m → outcome m s = .next t → baseCycles i = fetchedBytes i + n →
      t.cycles + fetchedBytes i = s.cycles + baseCycles i := by
    intro n m hm ho hbase
    rw [hm _ _ _ (outcome_eq_next ho), hbase]
    omega
  cases hclass : opClass i with
  | read => exact absurd hclass hread
  | branch => exact absurd hclass hbranch
  | write => exact key (.writeClass _ (.storeAddr (.inl hclass))) (exec_write i s hclass ▸ h) (baseCycles_of_class hclass nofun nofun)
  | rmw => exact key (.rmwClass _ (.storeAddr (.inr hclass))) (exec_rmw i s hclass ▸ h) (baseCycles_of_class hclass nofun nofun)
  | acc => exact key (.implied _) (exec_acc i s hclass ▸ h) (baseCycles_of_class hclass nofun nofun)
  | implied => exact key (.implied _) (exec_implied i s hclass ▸ h) (baseCycles_of_class hclass nofun nofun)
  | stack =>
    cases i <;> try (cases hclass; done)
    case pha | php => exact key (n := 2) (.bind .dummyPc fun _ => .bind (k := 0) .getCpu fun _ => .push _) h rfl
    case pla | plp =>
      exact key (n := 3) (.bind (n := 2) .dummyPc fun _ => .bind .dummyStack fun _ => .bind .pull fun _ => .modifyCpu _) h rfl
  | control =>
    cases i <;> try (cases hclass; done)
    case jmpAbs => exact key (m := setPc _) (.modifyCpu _) h rfl
    case jmpInd => exact key (n := 2) (.bind (.memRead _) fun _ => .bind (.memRead _) fun _ => .modifyCpu _) h rfl
    case jsr =>
      exact key (n := 4) (.bind (n := 3) .dummyStack fun _ => .bind (k := 0) .getCpu fun _ => .bind (n := 2) (.push _) fun _ =>
        .bind (.push _) fun _ => .bind (.memRead _) fun _ => .modifyCpu _) h rfl
    case rts =>
      exact key (n := 5) (.bind (n := 4) .dummyPc fun _ => .bind (n := 3) .dummyStack fun _ => .bind (n := 2) .pull fun _ =>
        .bind .pull fun _ => .bind (.dummy _) fun _ => .modifyCpu _) h rfl
    case brk => exact key (.takeException _ _) h rfl
    case rti =>
      exact key (n := 5) (.bind (n := 4) .dummyPc fun _ => .bind .dummyStack fun _ => .returnFromException) h rfl

/-- Settles O17: the sequences of the read class and of the branches take their extra cycles, every other the table's. -/
theorem instructionsTakeTheTableCycles : Obligations.InstructionsTakeTheTableCycles := by
  intro i s t h
  by_cases hread : opClass i = .read
  · have hbase : baseCycles i = fetchedBytes i + readCycles i.mode := baseCycles_of_class hread nofun nofun
    have hcycles := exec_read_cycles hread h
    omega
  by_cases hbranch : opClass i = .branch
  · have hbase : baseCycles i = fetchedBytes i := baseCycles_of_class hbranch nofun nofun
    have hcycles := exec_branch_cycles hbranch h
    omega
  · rw [extraCycles_eq_zero s hread hbranch]
    exact exec_takes hread hbranch h

end Sys2Proof.Machine
end

section
/-! SUPPORT. The proofs of the statements of loads, stores, transfers and index steps (40_load_store_transfer R300 to R311,
43_incdec_shift R352 to R355), and what every instruction of the read class does with its operand. -/

namespace Sys2Proof.Machine

/-! ### The read class (30_encoding R214) -/

/-- The mnemonics whose every form is of the read class (30_encoding R214). -/
def readMnemonics : List String :=
  ["LDA", "LDX", "LDY", "ADC", "SBC", "AND", "ORA", "EOR", "BIT", "CMP", "CPX", "CPY"]

theorem opClass_eq_read_iff (i : Instr) : opClass i = .read ↔ mnemonic i ∈ readMnemonics := by
  cases i <;> simp [opClass, mnemonic, readMnemonics]

/-- A read-class instruction whose operand is read changes the registers by its effect on the operand, and nothing else. -/
theorem read_next {i : Instr} {s s1 : State} {m : Byte} {f : Byte → Cpu → Cpu} (hname : mnemonic i ∈ readMnemonics)
    (hread : readOperand i s = .ok m s1) (hf : readEffect i = f) : exec i s = .next { s1 with cpu := f m s.cpu } := by
  obtain ⟨hcpu, -⟩ := Keeps.readOperand keepsCpuAndCells_read i s m s1 hread
  rw [exec_read i s ((opClass_eq_read_iff i).mpr hname), hf]
  exact outcome_ok (by rw [bind_ok hread, modifyCpu_apply, hcpu])

/-- Settles O26: each is the read class with the effect that loads its register. -/
theorem loadsSetTheirRegister : Obligations.LoadsSetTheirRegister := by
  intro i s s1 m hread
  refine ⟨fun hname => ?_, fun hname => ?_, fun hname => ?_⟩
  · exact read_next (f := Cpu.loadA) (by simp [hname, readMnemonics]) hread (by simp [readEffect, hname])
  · exact read_next (f := Cpu.loadX) (by simp [hname, readMnemonics]) hread (by simp [readEffect, hname])
  · exact read_next (f := Cpu.loadY) (by simp [hname, readMnemonics]) hread (by simp [readEffect, hname])

/-! ### The write class (30_encoding R214) -/

/-- The registers of the write class, by mnemonic (30_encoding R214). -/
theorem storedRegister_cases {i : Instr} (h : opClass i = .write) :
    (mnemonic i = "STA" ∧ storedRegister i = Cpu.a) ∨ (mnemonic i = "STX" ∧ storedRegister i = Cpu.x) ∨
    (mnemonic i = "STY" ∧ storedRegister i = Cpu.y) := by
  cases i <;> first | (cases h; done) | simp [mnemonic, storedRegister]

/-- A write-class instruction is its address sequence, then one write of its register. -/
theorem write_next {i : Instr} {s s1 t : State} {ea : Word} (hclass : opClass i = .write)
    (haddr : storeAddr i s = .ok ea s1) (hwrite : memWrite ea (storedRegister i s.cpu) s1 = .ok () t) :
    exec i s = .next t := by
  obtain ⟨hcpu, -⟩ := Keeps.storeAddr keepsCpuAndCells_read i s ea s1 haddr
  rw [exec_write i s hclass]
  exact outcome_ok (u := ()) (by rw [writeClass, bind_ok haddr, bind_ok (getCpu_apply s1), hcpu, hwrite])

/-- Settles O27: the register is the mnemonic's, and what the instruction changes is what its one write changes. -/
theorem storesWriteTheirRegister : Obligations.StoresWriteTheirRegister := by
  intro i s s1 ea hclass haddr hfault
  have hwrite := memWrite_ok (d := storedRegister i s.cpu) hfault
  obtain ⟨hcpu1, hcells1⟩ := Keeps.storeAddr keepsCpuAndCells_read i s ea s1 haddr
  obtain ⟨hcpu2, -, -, -, -, -, hcells2, -⟩ := memWrite_frame hwrite
  refine ⟨storedRegister i s.cpu, _, write_next hclass haddr hwrite, rfl, ?sta, ?stx, ?sty, ?name, hcpu2.trans hcpu1,
    fun l hl => (hcells2 l hl).trans (hcells1 l), fun k hk => memWrite_cell_ram hk hwrite⟩
  case sta | stx | sty => exact fun hname => by simp [storedRegister, hname]
  case name => rcases storedRegister_cases hclass with ⟨hname, -⟩ | ⟨hname, -⟩ | ⟨hname, -⟩ <;> simp [hname]

/-! ### Transfers and index steps (40_load_store_transfer R306 to R311, 43_incdec_shift R352 to R355) -/

/-- Settles O28: each is the implied sequence with its effect. -/
theorem transfersAndIndexStepsActOnRegisters : Obligations.TransfersAndIndexStepsActOnRegisters := by
  intro s s1 b hread
  obtain ⟨-, -, hcycles, -⟩ := memRead_frame hread
  have next : ∀ f, outcome (implied f) s = .next { s1 with cpu := f s.cpu } := fun f => implied_next f hread
  exact ⟨rfl, hcycles, next _, next _, next _, next _, next _, next _, next _, next _, next _, next _⟩

end Sys2Proof.Machine
end

section
/-! SUPPORT. The proofs of the statements of arithmetic, logic and compare (42_arith_logic R330 to R339): each instruction is
the read class with the effect of its mnemonic, and the effects of ADC and SBC are the exact sums of their rules. -/

namespace Sys2Proof.Machine

/-! ### Addition (42_arith_logic R330) -/

/-- The registers after an addition to A whose unsigned sum is `sum` and whose signed sum is `signed`
(42_arith_logic R330). -/
def Cpu.addResult (sum : Nat) (signed : Int) (q : Cpu) : Cpu :=
  let r : Byte := BitVec.ofNat 8 sum
  { q with
    a := r
    p := setNZ r { q.p with c := decide (256 ≤ sum), v := decide (signed < -128 ∨ 127 < signed) } }

/-- Nine bits hold the sum of two bytes and a carry. -/
theorem addSum_toNat (a m : Byte) (c : Bool) : (addSum a m c).toNat = a.toNat + m.toNat + c.toNat := by
  have hc := c.toNat_le
  simp only [addSum, BitVec.toNat_add, BitVec.toNat_setWidth, BitVec.toNat_ofBool]
  omega

theorem addSum_result (a m : Byte) (c : Bool) :
    (addSum a m c).setWidth 8 = BitVec.ofNat 8 (a.toNat + m.toNat + c.toNat) := by
  rw [← addSum_toNat, BitVec.ofNat_toNat]

/-- Bit 8 of the sum is the carry out (42_arith_logic R330). -/
theorem addSum_carry (a m : Byte) (c : Bool) :
    (addSum a m c).getLsbD 8 = decide (256 ≤ a.toNat + m.toNat + c.toNat) := by
  rw [← addSum_toNat]
  exact BitVec.msb_eq_decide (addSum a m c)

theorem bit7_eq_decide (b : Byte) : b.getLsbD 7 = decide (128 ≤ b.toNat) := BitVec.msb_eq_decide b

/-- A byte's signed value from its unsigned one: those from 128 on are negative. -/
theorem byte_toInt (b : Byte) : b.toInt = if 128 ≤ b.toNat then (b.toNat : Int) - 256 else b.toNat := by
  rw [BitVec.toInt_eq_msb_cond, BitVec.msb_eq_decide]
  simp

/-- The signed sum leaves -128..127 exactly when A and `m` agree in sign and the result does not (42_arith_logic R330). -/
theorem signedOverflow_eq (a m : Byte) (c : Bool) :
    (~~~(a ^^^ m) &&& (a ^^^ BitVec.ofNat 8 (a.toNat + m.toNat + c.toNat))).getLsbD 7 =
      decide (a.toInt + m.toInt + c.toNat < -128 ∨ 127 < a.toInt + m.toInt + c.toNat) := by
  have hc := c.toNat_le
  rw [Bool.eq_iff_iff]
  simp only [BitVec.getLsbD_and, BitVec.getLsbD_not, BitVec.getLsbD_xor]
  simp only [bit7_eq_decide, byte_toInt, BitVec.toNat_ofNat]
  -- the signs of A and `m` decide which overflow can happen, and the sum's range decides whether it does
  by_cases ha : 128 ≤ a.toNat <;> by_cases hm : 128 ≤ m.toNat <;> simp [ha, hm] <;> omega

/-- ADC adds the operand and the carry to A (42_arith_logic R330). -/
theorem Cpu.adc_eq (m : Byte) (q : Cpu) :
    q.adc m = q.addResult (q.a.toNat + m.toNat + q.p.c.toNat) (q.a.toInt + m.toInt + q.p.c.toNat) := by
  simp only [Cpu.adc, Cpu.addResult, addSum_carry, addSum_result, signedOverflow_eq]

/-- Settles O31: ADC's effect is the exact sum, and D is no part of it. -/
theorem adcAddsWithCarry : Obligations.AdcAddsWithCarry := by
  intro i s s1 m hname hread
  have hcarry : s.cpu.p.c.toNat = if s.cpu.p.c then 1 else 0 := Bool.cond_eq_ite ..
  rw [read_next (f := Cpu.adc) (by simp [hname, readMnemonics]) hread (by simp [readEffect, hname]), Cpu.adc_eq, hcarry]
  rfl

/-! ### Subtraction (42_arith_logic R331) -/

theorem byte_toInt_not (m : Byte) : (~~~m).toInt = -m.toInt - 1 := by
  rw [byte_toInt, byte_toInt, BitVec.toNat_not]
  split <;> split <;> omega

/-- SBC takes the operand and the borrow from A: adding `m ^ 0xFF` and the carry is adding 256 - m - (1 - C), or -m - (1 - C)
as a signed number (42_arith_logic R331). -/
theorem Cpu.sbc_eq (m : Byte) (q : Cpu) :
    q.sbc m = q.addResult (q.a.toNat + 256 - m.toNat - (!q.p.c).toNat) (q.a.toInt - m.toInt - (!q.p.c).toNat) := by
  have hflip : m ^^^ 0xFF#8 = ~~~m := BitVec.xor_allOnes
  have hborrow : q.p.c.toNat + (!q.p.c).toNat = 1 := by cases q.p.c <;> rfl
  have hsum : q.a.toNat + (~~~m).toNat + q.p.c.toNat = q.a.toNat + 256 - m.toNat - (!q.p.c).toNat := by
    rw [BitVec.toNat_not]; omega
  have hsigned : q.a.toInt + (~~~m).toInt + q.p.c.toNat = q.a.toInt - m.toInt - (!q.p.c).toNat := by
    rw [byte_toInt_not]; omega
  rw [Cpu.sbc, hflip, Cpu.adc_eq, hsum, hsigned]

/-- Settles O32: SBC's effect is the exact difference, and the carry out of the sum is no borrow out of the difference. -/
theorem sbcSubtractsWithBorrow : Obligations.SbcSubtractsWithBorrow := by
  intro i s s1 m hname hread borrow signed r
  have hborrow : (!s.cpu.p.c).toNat = borrow := by cases h : s.cpu.p.c <;> simp [borrow, h]
  have hcarry : 256 ≤ s.cpu.a.toNat + 256 - m.toNat - borrow ↔ m.toNat + borrow ≤ s.cpu.a.toNat := by omega
  rw [read_next (f := Cpu.sbc) (by simp [hname, readMnemonics]) hread (by simp [readEffect, hname]), Cpu.sbc_eq, hborrow]
  simp only [Cpu.addResult, hcarry]
  rfl

/-! ### Logic and compare (42_arith_logic R332 to R338) -/

/-- Settles O33: each is the read class with its effect on A, or on the flags alone. -/
theorem logicCombinesWithA : Obligations.LogicCombinesWithA := by
  intro i s s1 m hread
  refine ⟨fun hname => ?_, fun hname => ?_, fun hname => ?_, fun hname => ?_⟩
  · exact read_next (f := Cpu.and) (by simp [hname, readMnemonics]) hread (by simp [readEffect, hname])
  · exact read_next (f := Cpu.ora) (by simp [hname, readMnemonics]) hread (by simp [readEffect, hname])
  · exact read_next (f := Cpu.eor) (by simp [hname, readMnemonics]) hread (by simp [readEffect, hname])
  · exact read_next (f := Cpu.bit) (by simp [hname, readMnemonics]) hread (by simp [readEffect, hname])

/-- The difference is zero exactly when the bytes are equal (42_arith_logic R336). -/
theorem compareFlags_eq (q m : Byte) (p : Flags) : compareFlags q m p =
    { p with c := decide (m.toNat ≤ q.toNat), z := decide (q = m), n := (q - m).getLsbD 7 } := by
  have hzero : q - m = 0#8 ↔ q = m := sub_eq_zero
  simp only [compareFlags, setNZ, hzero]

/-- Settles O34: each is the read class with the compare of its register. -/
theorem comparesOrderTheirRegister : Obligations.ComparesOrderTheirRegister := by
  intro i s s1 m hread cmp
  have next : ∀ {f : Byte → Cpu → Cpu} {q : Byte}, mnemonic i ∈ readMnemonics → readEffect i = f →
      f m s.cpu = { s.cpu with p := compareFlags q m s.cpu.p } → exec i s = .next { s1 with cpu := cmp q } := by
    intro f q hname hf hq
    rw [read_next hname hread hf, hq, compareFlags_eq]
  refine ⟨fun hname => ?_, fun hname => ?_, fun hname => ?_⟩
  · exact next (f := Cpu.cmp) (by simp [hname, readMnemonics]) (by simp [readEffect, hname]) rfl
  · exact next (f := Cpu.cpx) (by simp [hname, readMnemonics]) (by simp [readEffect, hname]) rfl
  · exact next (f := Cpu.cpy) (by simp [hname, readMnemonics]) (by simp [readEffect, hname]) rfl

end Sys2Proof.Machine
end

section
/-! SUPPORT. The proofs of the statements of control transfer (44_control R370 to R373, R382, R383): jumps, calls and returns,
and the exception sequence, which BRK shares with the interrupt entries (60_exceptions R614). -/

namespace Sys2Proof.Machine

/-! ### Stack cycles (41_stack, 60_exceptions R614)

A cycle of a stack sequence changes the CPU registers, RAM and the bus latch, and lets the time of a cycle pass. The two do
not interfere, so a sequence is the registers, RAM and latch it computes, beside its number of cycles. -/

/-- The state `n` cycles after `s`, with the CPU registers `r`, RAM `m` and the bus latch `b`. -/
def stackWork (n : Nat) (r : Cpu) (m : Memory 8) (b : Byte) (s : State) : State :=
  { idleCycles n s with cpu := r, ram := m, busLatch := b }

/-- A stack sequence begins with no cycle passed. -/
theorem stackWork_zero (s : State) : s = stackWork 0 s.cpu s.ram s.busLatch s := rfl

theorem endCycle_idleCycles (n : Nat) (s : State) : endCycle (idleCycles n s) = idleCycles (n + 1) s := by
  induction n generalizing s with
  | zero => rfl
  | succ n ih => exact ih (endCycle s)

section
variable (n : Nat) (r : Cpu) (m : Memory 8) (b v : Byte) (s : State)

/-- The registers, RAM and the latch take no part in the time of a cycle. -/
theorem endCycle_stackWork : endCycle (stackWork n r m b s) = stackWork (n + 1) r m b s := by
  have hcommutes : endCycle (stackWork n r m b s) = { endCycle (idleCycles n s) with cpu := r, ram := m, busLatch := b } := rfl
  rw [hcommutes, endCycle_idleCycles, stackWork]

@[simp] theorem stackWork_cpu : (stackWork n r m b s).cpu = r := rfl
@[simp] theorem stackWork_ram : (stackWork n r m b s).ram = m := rfl
@[simp] theorem stackWork_busLatch : (stackWork n r m b s).busLatch = b := rfl
@[simp] theorem stackWork_board : (stackWork n r m b s).board = s.board := idleCycles_board n s
@[simp] theorem stackWork_cycles : (stackWork n r m b s).cycles = s.cycles + n := idleCycles_cycles n s

/-- Stack cycles leave PPUMASK alone, so an address that is fault-free stays so. -/
theorem faultFree_stackWork {s : State} {a : Word} (h : faultFree s a) : faultFree (stackWork n r m b s) a :=
  h.imp_left (idleCycles_field (·.ppu.renderingEnabled) endCycle_renderingEnabled n s).trans

theorem getCpu_stackWork : getCpu (stackWork n r m b s) = .ok r (stackWork n r m b s) := rfl

theorem modifyCpu_stackWork (f : Cpu → Cpu) :
    modifyCpu f (stackWork n r m b s) = .ok () (stackWork n (f r) m b s) := rfl

theorem push_stackWork : push v (stackWork n r m b s) =
    .ok () (stackWork (n + 1) { r with s := r.s - 1#8 } (m.write (stackCell r.s) v) v s) := by
  rw [push_apply, ← endCycle_stackWork]
  rfl

theorem pull_stackWork : pull (stackWork n r m b s) =
    .ok (m.read (stackCell (r.s + 1#8)))
      (stackWork (n + 1) { r with s := r.s + 1#8 } m (m.read (stackCell (r.s + 1#8))) s) := by
  rw [pull_apply, ← endCycle_stackWork]
  rfl

theorem dummyStack_stackWork : dummyStack (stackWork n r m b s) =
    .ok () (stackWork (n + 1) r m (m.read (stackCell r.s)) s) := by
  rw [dummyStack_apply, ← endCycle_stackWork]
  rfl

/-- A read of PRG ROM, where the vectors are, rests on the cartridge alone. -/
theorem memRead_prg_stackWork {a : Word} (h : decodeAddr a = .prg) : memRead a (stackWork n r m b s) =
    .ok (readByte s a) (stackWork (n + 1) r m (readByte s a) s) := by
  have hbyte : readByte (stackWork n r m b s) a = readByte s a := by simp only [readByte, h, stackWork_board]
  rw [memRead_plain (by rw [holdsCode, h]), hbyte, ← endCycle_stackWork]
  rfl

end

/-! ### Jumps (44_control R370, R371) -/

/-- Settles O38: JMP absolute is one change of PC; JMP indirect is its two reads, which leave the registers alone. -/
theorem jumpsSetPc : Obligations.JumpsSetPc := by
  refine fun s lo8 hi8 => ⟨rfl, rfl, rfl, fun lo hi s1 s2 hlo hhi => ?_⟩
  obtain ⟨-, hcpu1, hcycles1, -⟩ := memRead_frame hlo
  obtain ⟨-, hcpu2, hcycles2, -⟩ := memRead_frame hhi
  refine ⟨outcome_ok (u := ()) ?_, by omega⟩
  rw [bind_ok hlo, bind_ok hhi, setPc_apply, hcpu2, hcpu1]

/-! ### Calls and returns (44_control R372, R373, R383) -/

theorem stack_add_two (q : Byte) : q + 1#8 + 1#8 = q + 2#8 := by bv_omega

theorem stack_add_three (q : Byte) : q + 2#8 + 1#8 = q + 3#8 := by bv_omega

/-- JSR's stack cycles (44_control R372). -/
theorem jsrPushes_bind {α : Type} (f : Cpu → M α) (s : State) :
    (do dummyStack; let r ← getCpu; push (page r.pc); push (lowByte r.pc); f r) s =
      f s.cpu (stackWork 3 { s.cpu with s := s.cpu.s - 2#8 }
        ((s.ram.write (stackCell s.cpu.s) (page s.cpu.pc)).write (stackCell (s.cpu.s - 1#8)) (lowByte s.cpu.pc))
        (lowByte s.cpu.pc) s) := by
  conv_lhs => rw [stackWork_zero s]
  simp only [bind_eq, dummyStack_stackWork, getCpu_stackWork, push_stackWork, stack_sub_two, Nat.reduceAdd]

/-- Settles O39: the stack cycles leave PC fault-free, so the read of the target's high byte completes; from plain memory it
returns what stands there after the pushes. -/
theorem jsrPushesItsLastAddress : Obligations.JsrPushesItsLastAddress := by
  intro s lo8 hi8 h
  refine ⟨rfl, _, outcome_ok (by
    rw [jsrPushes_bind, bind_ok (memRead_ok (readFault_free (faultFree_stackWork 3 _ _ _ h))), setPc_apply]), ?_⟩
  simp only [endCycle_ram, afterRead_ram, stackWork_ram, endCycle_cpu, afterRead_cpu, stackWork_cpu, endCycle_busLatch,
    endCycle_cycles, afterRead_cycles, stackWork_cycles, true_and]
  exact fun hcode => readByte_plain hcode rfl (stackWork_board _ _ _ _ _)

/-- A dummy read of a fault-free address completes, and keeps the registers, RAM and which addresses are fault-free
(30_encoding R203). -/
theorem dummy_free {s : State} {a : Word} (h : faultFree s a) :
    ∃ t, dummy a s = .ok () t ∧ t.cpu = s.cpu ∧ t.ram = s.ram ∧ t.cycles = s.cycles + 1 ∧
      ∀ {b}, faultFree s b → faultFree t b := by
  have hread := memRead_ok (readFault_free h)
  obtain ⟨-, hcpu, hcycles, hram, -⟩ := memRead_frame hread
  exact ⟨_, bind_ok hread, hcpu, hram, hcycles, faultFree_memRead hread⟩

/-- RTS's stack cycles (44_control R373). -/
theorem rtsPulls_bind {α : Type} (f : Byte → Byte → M α) (s : State) :
    (do dummyStack; let lo ← pull; let hi ← pull; f lo hi) s =
      f (s.ram.read (stackCell (s.cpu.s + 1#8))) (s.ram.read (stackCell (s.cpu.s + 2#8)))
        (stackWork 3 { s.cpu with s := s.cpu.s + 2#8 } s.ram (s.ram.read (stackCell (s.cpu.s + 2#8))) s) := by
  conv_lhs => rw [stackWork_zero s]
  simp only [bind_eq, dummyStack_stackWork, pull_stackWork, stack_add_two, Nat.reduceAdd]

/-- Settles O40: both dummy reads outside the stack are of fault-free addresses, and nothing else can fault. -/
theorem rtsReturnsPastThePulledAddress : Obligations.RtsReturnsPastThePulledAddress := by
  intro s ret h
  obtain ⟨u, hdummy, hcpu, hram, hcycles, hfree⟩ := dummy_free (h.imp_right And.left)
  obtain ⟨v, hdummyRet, hcpuRet, hramRet, hcyclesRet, -⟩ := dummy_free (faultFree_stackWork 3
    { s.cpu with s := s.cpu.s + 2#8 } s.ram (s.ram.read (stackCell (s.cpu.s + 2#8))) (hfree (h.imp_right And.right)))
  have hfive : v.cycles = s.cycles + 5 := by rw [stackWork_cycles] at hcyclesRet; omega
  refine ⟨rfl, _, outcome_ok (by
    rw [bind_ok (m := dummyPc) hdummy, rtsPulls_bind, hcpu, hram, bind_ok hdummyRet, setPc_apply]), ?_⟩
  exact ⟨by rw [hcpuRet, stackWork_cpu], hramRet, hfive⟩

/-- RTI's cycles 4 to 6 (44_control R383). -/
theorem returnFromException_apply (s : State) : returnFromException s =
    .ok () (stackWork 3
      { s.cpu with
        s := s.cpu.s + 3#8
        p := pulledFlags (s.ram.read (stackCell (s.cpu.s + 1#8)))
        pc := cat16 (s.ram.read (stackCell (s.cpu.s + 3#8))) (s.ram.read (stackCell (s.cpu.s + 2#8))) }
      s.ram (s.ram.read (stackCell (s.cpu.s + 3#8))) s) := by
  conv_lhs => rw [stackWork_zero s]
  simp only [returnFromException, bind_eq, pull_stackWork, modifyCpu_stackWork, setPc, stack_add_two,
    stack_add_three, Nat.reduceAdd]

/-- Settles O42: after the dummy reads, of PC and of the stack, `returnFromException` takes what the stack holds. -/
theorem rtiRestoresFlagsAndPc : Obligations.RtiRestoresFlagsAndPc := by
  intro s h
  obtain ⟨u, hdummy, hcpu, hram, hcycles, -⟩ := dummy_free h
  refine ⟨rfl, _, outcome_ok (by
    rw [bind_ok (m := dummyPc) hdummy, bind_ok (dummyStack_apply u), returnFromException_apply]), ?_⟩
  simp [hcpu, hram, hcycles, pulledFlags]

/-! ### The exception sequence (60_exceptions R614, 44_control R382) -/

/-- The pushes of the sequence, and then the vector (60_exceptions R614). -/
theorem takeException_eq_jumpVector (b : Bool) (vec : Word) (s : State) : takeException b vec s =
    jumpVector vec (stackWork 3
      { s.cpu with s := s.cpu.s - 3#8, p := { s.cpu.p with i := true } }
      (((s.ram.write (stackCell s.cpu.s) (page s.cpu.pc)).write
        (stackCell (s.cpu.s - 1#8)) (lowByte s.cpu.pc)).write
        (stackCell (s.cpu.s - 2#8)) (pImage s.cpu.p b))
      (pImage s.cpu.p b) s) := by
  have hthree : s.cpu.s - 2#8 - 1#8 = s.cpu.s - 3#8 := by bv_omega
  conv_lhs => rw [stackWork_zero s]
  simp only [takeException, bind_eq, getCpu_stackWork, push_stackWork, modifyCpu_stackWork, stack_sub_two,
    hthree, Nat.reduceAdd]

/-- PC from a vector in PRG ROM (60_exceptions R615). -/
theorem jumpVector_stackWork {vec : Word} (hlo : decodeAddr vec = .prg) (hhi : decodeAddr (vec + 1#16) = .prg) (n : Nat)
    (r : Cpu) (m : Memory 8) (b : Byte) (s : State) : jumpVector vec (stackWork n r m b s) =
    .ok () (stackWork (n + 2) { r with pc := cat16 (readByte s (vec + 1#16)) (readByte s vec) } m
      (readByte s (vec + 1#16)) s) := by
  rw [jumpVector, bind_ok (memRead_prg_stackWork _ _ _ _ _ hlo), bind_ok (memRead_prg_stackWork _ _ _ _ _ hhi), setPc,
    modifyCpu_stackWork]

/-- The exception sequence through a vector in PRG ROM always completes, in five cycles. -/
theorem takeException_took {vec : Word} (hlo : decodeAddr vec = .prg) (hhi : decodeAddr (vec + 1#16) = .prg) (b : Bool)
    (s : State) : ∃ t, takeException b vec s = .ok () t ∧ tookException b vec s t ∧ t.cycles = s.cycles + 5 :=
  ⟨_, (takeException_eq_jumpVector b vec s).trans (jumpVector_stackWork hlo hhi ..), ⟨rfl, rfl⟩, stackWork_cycles ..⟩

/-- Settles O41: BRK is the exception sequence with B = 1 through 0xFFFE. -/
theorem brkTakesTheTrap : Obligations.BrkTakesTheTrap := by
  intro s padding
  obtain ⟨t, hrun, htook, hcycles⟩ :=
    takeException_took (vec := irqVector) (decodeAddr_prg (by decide)) (decodeAddr_prg (by decide)) true s
  exact ⟨rfl, t, outcome_ok hrun, htook, hcycles, pImage_getLsbD_four _ _⟩

end Sys2Proof.Machine
end

section
/-! SUPPORT. The proofs of the statements of 60_exceptions: what a dot does (R601 to R608), the NMI edge check (R610), the
interrupt entries and their returns (R612 to R617), and a requested reset (R680). -/

namespace Sys2Proof.Machine

/-! ### The NMI edge check (60_exceptions R610) -/

theorem afterWrite_ppuctrl (s : State) (d : Byte) : (afterWrite s 0x2000#16 d).ppu =
    { s.ppu with ctrl := d, t := setField s.ppu.t 10 (d.extractLsb' 0 2), ioLatch := d } := rfl

/-- Settles O51: the edge check is the last act of a dot, of a PPUCTRL write's rule and of a PPUSTATUS read's, and the write
replaces one field of `t`. -/
theorem nmiEdgeIsLatched : Obligations.NmiEdgeIsLatched := by
  intro s d latched t
  have hnmi : t.nmi = latched s.nmi s.ppu.vbl (d.getLsbD 7) := rfl
  have hppu : t.ppu = _ := afterWrite_ppuctrl s d
  refine ⟨rfl, rfl, hnmi, rfl, by rw [hppu], ?_, ?_, ?_, fun hlow hvbl henable => ?_⟩
  · rw [hppu, extractLsb'_setField_same _ _ (by decide)]
  · rw [hppu, extractLsb'_setField_other _ _ (by decide) (by decide)]
  · rw [hppu, extractLsb'_setField_other _ _ (by decide) (by decide)]
  · rw [hnmi]
    simp [latched, hlow, hvbl, henable]

/-! ### What a dot does (60_exceptions R601 to R608) -/

section
variable (s : State)

theorem tick_oddFrame : (tick s).ppu.oddFrame = s.ppu.advance.oddFrame := rfl

theorem tick_vbl : (tick s).ppu.vbl =
    ((s.ppu.vbl || (tick s).ppu.atVblankEntry) && !(tick s).ppu.atPreRenderStart) := rfl

theorem tick_s0hit : (tick s).ppu.s0hit =
    ((s.ppu.s0hit && !(tick s).ppu.atPreRenderStart) || ((tick s).ppu.drawsFlags && Config.renderHit s.draws)) := rfl

theorem tick_sovf : (tick s).ppu.sovf =
    ((s.ppu.sovf && !(tick s).ppu.atPreRenderStart) || ((tick s).ppu.drawsFlags && Config.renderOverflow s.draws)) := rfl

theorem tick_framePulses : (tick s).framePulses =
    if (tick s).ppu.atVblankEntry then s.cycles :: s.framePulses else s.framePulses := rfl

end

theorem Ppu.atVblankEntry_iff (p : Ppu) : p.atVblankEntry = true ↔ p.scanline = 241 ∧ p.dot = 1 := decide_eq_true_iff

theorem Ppu.atPreRenderStart_iff (p : Ppu) : p.atPreRenderStart = true ↔ p.scanline = 261 ∧ p.dot = 1 :=
  decide_eq_true_iff

theorem Ppu.drawsFlags_iff (p : Ppu) :
    p.drawsFlags = true ↔ p.renderingEnabled = true ∧ p.scanline ≤ 239 ∧ 1 ≤ p.dot ∧ p.dot ≤ 256 := by
  rw [Ppu.drawsFlags, Bool.and_eq_true, decide_eq_true_iff]

/-- As dot 339 of the pre-render line is left, the line ends exactly when the dot after it is skipped (60_exceptions
R603). -/
theorem Ppu.lineEnds_at_skip {p : Ppu} (hline : p.scanline = 261) (hdot : p.dot = 339) :
    p.lineEnds = (p.oddFrame && p.renderingEnabled) := by
  simp [Ppu.lineEnds, Ppu.skipsDot, hline, hdot]

/-- The dot that enters vertical blank sets vbl and records its pulse (60_exceptions R604). -/
theorem tick_entry {s : State} (h : (tick s).ppu.atVblankEntry = true) :
    (tick s).ppu.vbl = true ∧ (tick s).framePulses = s.cycles :: s.framePulses := by
  have hpre : (tick s).ppu.atPreRenderStart = false := by
    obtain ⟨hline, -⟩ := (Ppu.atVblankEntry_iff _).mp h
    exact decide_eq_false (by omega)
  exact ⟨by rw [tick_vbl, h, hpre, Bool.or_true]; rfl, by rw [tick_framePulses, if_pos h]⟩

/-- Settles O58: each clause is the equation of its field at the position that the dot reaches. -/
theorem vblankAndTheSkipFollowTheCounters : Obligations.VblankAndTheSkipFollowTheCounters := by
  intro s t
  refine ⟨fun hline hdot => ?skip, fun hline hdot => tick_entry (t.ppu.atVblankEntry_iff.mpr ⟨hline, hdot⟩),
    fun hline hdot => ?preRender, fun hentry => ?noPulse, fun hentry hpre => ?vbl, fun hpre => ?kept,
    fun hdraws => ?notSet⟩
  case skip =>
    have hends := Ppu.lineEnds_at_skip hline hdot
    rw [tick_scanline, tick_dot, tick_oddFrame]
    split
    · next h => simp [Ppu.advance, Ppu.frameEnds, hends, hline, h]
    · next h =>
      have hgoes : (s.ppu.oddFrame && s.ppu.renderingEnabled) = false := by simpa using h
      simp [Ppu.advance, Ppu.frameEnds, hends, hline, hdot, hgoes]
  case preRender =>
    have hpre : t.ppu.atPreRenderStart = true := t.ppu.atPreRenderStart_iff.mpr ⟨hline, hdot⟩
    have hdraws : t.ppu.drawsFlags = false := Bool.eq_false_iff.mpr fun h => by
      have := t.ppu.drawsFlags_iff.mp h
      omega
    exact ⟨by simp [t, tick_vbl, hpre], by simp [t, tick_s0hit, hpre, hdraws], by simp [t, tick_sovf, hpre, hdraws]⟩
  case noPulse => rw [tick_framePulses, if_neg (mt t.ppu.atVblankEntry_iff.mp hentry)]
  case vbl =>
    rw [← Ppu.atVblankEntry_iff, Bool.not_eq_true] at hentry
    rw [← Ppu.atPreRenderStart_iff, Bool.not_eq_true] at hpre
    rw [tick_vbl, hentry, hpre, Bool.or_false, Bool.not_false, Bool.and_true]
  case kept =>
    rw [← Ppu.atPreRenderStart_iff, Bool.not_eq_true] at hpre
    exact ⟨fun h => by simp [t, tick_s0hit, hpre, h], fun h => by simp [t, tick_sovf, hpre, h]⟩
  case notSet =>
    have hnone : t.ppu.drawsFlags = false := Bool.eq_false_iff.mpr (mt t.ppu.drawsFlags_iff.mp hdraws)
    rw [tick_s0hit, tick_sovf, hnone, Bool.false_and, Bool.or_false, Bool.false_and, Bool.or_false]
    exact ⟨fun h => (Bool.and_eq_true_iff.mp h).1, fun h => (Bool.and_eq_true_iff.mp h).1⟩

/-! ### The scroll address (60_exceptions R606, R607) -/

theorem tick_v (s : State) : (tick s).ppu.v =
    if (tick s).ppu.inRender then { (tick s).ppu with v := s.ppu.v }.renderV else s.ppu.v := by
  rw [tick_inRender]
  rfl

theorem tick_oamAddr_eq (s : State) : (tick s).ppu.oamAddr =
    if (tick s).ppu.inRender && decide (257 ≤ (tick s).ppu.dot ∧ (tick s).ppu.dot ≤ 320) then 0x00#8
    else s.ppu.oamAddr := by
  rw [tick_inRender]
  rfl

/-- A dot at which `v` takes IncCoarseX (60_exceptions R606). -/
def Ppu.stepsCoarseX (p : Ppu) : Prop :=
  ((1 ≤ p.dot ∧ p.dot ≤ 256) ∨ (321 ≤ p.dot ∧ p.dot ≤ 336)) ∧ p.dot % 8 = 0

/-- A dot at which `v` takes the vertical fields of `t` (60_exceptions R606). -/
def Ppu.copiesVertical (p : Ppu) : Prop := p.scanline = 261 ∧ 280 ≤ p.dot ∧ p.dot ≤ 304

section
variable {p : Ppu}

/-! No two updates of `v` but IncCoarseX and IncY meet at one dot. -/

theorem renderV_steps (h : p.stepsCoarseX) :
    p.renderV = if p.dot = 256 then incY (incCoarseX p.v) else incCoarseX p.v := by
  unfold Ppu.stepsCoarseX at h
  have hvertical : ¬ (p.scanline = 261 ∧ 280 ≤ p.dot ∧ p.dot ≤ 304) := by omega
  have hhorizontal : p.dot ≠ 257 := by omega
  simp only [Ppu.renderV, if_neg hvertical, if_neg hhorizontal, if_pos h]

theorem renderV_horizontal (h : p.dot = 257) : p.renderV = copyHorizontal p.t p.v := by
  simp [Ppu.renderV, h]

theorem renderV_vertical (h : p.copiesVertical) : p.renderV = copyVertical p.t p.v := by
  unfold Ppu.copiesVertical at h
  have hsteps : ¬ (((1 ≤ p.dot ∧ p.dot ≤ 256) ∨ (321 ≤ p.dot ∧ p.dot ≤ 336)) ∧ p.dot % 8 = 0) := by omega
  have hdot : p.dot ≠ 256 := by omega
  have hhorizontal : p.dot ≠ 257 := by omega
  simp only [Ppu.renderV, if_pos h, if_neg hsteps, if_neg hdot, if_neg hhorizontal]

theorem renderV_other (hsteps : ¬ p.stepsCoarseX) (hhorizontal : p.dot ≠ 257) (hvertical : ¬ p.copiesVertical) :
    p.renderV = p.v := by
  unfold Ppu.stepsCoarseX at hsteps
  unfold Ppu.copiesVertical at hvertical
  have hdot : p.dot ≠ 256 := by omega
  simp only [Ppu.renderV, if_neg hvertical, if_neg hhorizontal, if_neg hdot, if_neg hsteps]

end

section
variable (t v : BitVec 15)

/-- The horizontal copy takes coarse X and the horizontal nametable bit of `t`, and nothing else. -/
theorem copyHorizontal_fields :
    coarseX (copyHorizontal t v) = coarseX t ∧ (copyHorizontal t v).getLsbD 10 = t.getLsbD 10 ∧
    coarseY (copyHorizontal t v) = coarseY v ∧ fineY (copyHorizontal t v) = fineY v ∧
    (copyHorizontal t v).getLsbD 11 = v.getLsbD 11 := by
  simp (disch := decide) only [copyHorizontal, coarseX, coarseY, fineY, extractLsb'_setField_same,
    extractLsb'_setField_other, getLsbD_setField, BitVec.getLsbD_extractLsb']
  simp

/-- The vertical copy takes fine Y, coarse Y and the vertical nametable bit of `t`, and nothing else. -/
theorem copyVertical_fields :
    coarseY (copyVertical t v) = coarseY t ∧ fineY (copyVertical t v) = fineY t ∧
    (copyVertical t v).getLsbD 11 = t.getLsbD 11 ∧ coarseX (copyVertical t v) = coarseX v ∧
    (copyVertical t v).getLsbD 10 = v.getLsbD 10 := by
  have hfine : fineY (copyVertical t v) = fineY t := by
    refine BitVec.eq_of_getLsbD_eq fun i hi => ?_
    simp only [copyVertical, fineY, BitVec.getLsbD_extractLsb', getLsbD_setField _ _ _ (show 12 + i < 15 by omega)]
    rw [if_neg (by omega), if_pos (by omega)]
    simp [show 12 + i - 11 < 4 by omega, show 11 + (12 + i - 11) = 12 + i by omega]
  refine ⟨?_, hfine, ?_⟩
  · exact extractLsb'_setField_same _ _ (by decide)
  · simp (disch := decide) only [copyVertical, coarseX, extractLsb'_setField_other, getLsbD_setField,
      BitVec.getLsbD_extractLsb']
    simp

theorem incCoarseX_steps {v : BitVec 15} (h : coarseX v ≠ 31#5) : incCoarseX v = setField v 0 (coarseX v + 1#5) :=
  if_neg h

theorem incCoarseX_wraps {v : BitVec 15} (h : coarseX v = 31#5) :
    incCoarseX v = setField (setField v 0 0#5) 10 (~~~(v.extractLsb' 10 1)) := if_pos h

/-- IncCoarseX steps the column and, past 31, flips the horizontal nametable bit; every other field stays. -/
theorem incCoarseX_fields :
    coarseX (incCoarseX v) = coarseX v + 1#5 ∧
    (incCoarseX v).getLsbD 10 = (v.getLsbD 10 ^^ decide (coarseX v = 31#5)) ∧
    coarseY (incCoarseX v) = coarseY v ∧ fineY (incCoarseX v) = fineY v ∧
    (incCoarseX v).getLsbD 11 = v.getLsbD 11 := by
  by_cases h : coarseX v = 31#5
  · rw [incCoarseX_wraps h, h]
    simp (disch := decide) only [coarseX, coarseY, fineY, extractLsb'_setField_same, extractLsb'_setField_other,
      getLsbD_setField, BitVec.getLsbD_not, BitVec.getLsbD_extractLsb']
    simp
  · rw [incCoarseX_steps h, decide_eq_false h]
    simp (disch := decide) only [coarseX, coarseY, fineY, extractLsb'_setField_same, extractLsb'_setField_other,
      getLsbD_setField]
    simp

theorem incY_stepsFine {v : BitVec 15} (h : fineY v ≠ 7#3) : incY v = setField v 12 (fineY v + 1#3) := by
  have hlt : (fineY v).toNat < 7 := by bv_omega
  exact if_pos hlt

theorem incY_flips {v : BitVec 15} (hfine : fineY v = 7#3) (hrow : coarseY v = 29#5) :
    incY v = setField (setField (setField v 12 0#3) 5 0#5) 11 (~~~(v.extractLsb' 11 1)) := by
  simp only [coarseY, fineY] at hrow hfine
  simp (disch := decide) [incY, extractLsb'_setField_other, hfine, hrow]

/-- Past fine row 7 the row steps, and row 31 wraps as every other does. -/
theorem incY_stepsRow {v : BitVec 15} (hfine : fineY v = 7#3) (hrow : coarseY v ≠ 29#5) :
    incY v = setField (setField v 12 0#3) 5 (coarseY v + 1#5) := by
  simp only [coarseY, fineY] at hrow hfine ⊢
  by_cases hlast : v.extractLsb' 5 5 = 31#5 <;>
  simp (disch := decide) [incY, extractLsb'_setField_other, hfine, hrow, hlast]

/-- IncY steps the fine row, past 7 the row, and past row 29 flips the vertical nametable bit; every other field stays. -/
theorem incY_fields :
    fineY (incY v) = fineY v + 1#3 ∧ coarseX (incY v) = coarseX v ∧ (incY v).getLsbD 10 = v.getLsbD 10 ∧
    coarseY (incY v) = (if fineY v = 7#3 then (if coarseY v = 29#5 then 0#5 else coarseY v + 1#5) else coarseY v) ∧
    (incY v).getLsbD 11 = (v.getLsbD 11 ^^ decide (fineY v = 7#3 ∧ coarseY v = 29#5)) := by
  by_cases hfine : fineY v = 7#3
  · by_cases hrow : coarseY v = 29#5
    · rw [incY_flips hfine hrow, hfine, hrow]
      simp (disch := decide) only [coarseX, coarseY, fineY, extractLsb'_setField_same, extractLsb'_setField_other,
        getLsbD_setField, BitVec.getLsbD_not, BitVec.getLsbD_extractLsb']
      simp
    · rw [incY_stepsRow hfine hrow, hfine, if_neg hrow, decide_eq_false fun h => hrow h.2]
      simp (disch := decide) only [coarseX, coarseY, fineY, extractLsb'_setField_same, extractLsb'_setField_other,
        getLsbD_setField]
      simp
  · rw [incY_stepsFine hfine, if_neg hfine, decide_eq_false fun h => hfine h.1]
    simp (disch := decide) only [coarseX, coarseY, fineY, extractLsb'_setField_same, extractLsb'_setField_other,
      getLsbD_setField]
    simp

end

/-- Settles O59: `v` after a dot is the update of the dot reached, and each update is its fields. -/
theorem renderingMovesTheScrollAddress : Obligations.RenderingMovesTheScrollAddress := by
  refine ⟨?dots, fun v => ?fields⟩
  case dots =>
    intro s p q steps vertical
    refine ⟨fun hoff => ?_, fun hon => ?_⟩
    · exact ⟨(tick_v s).trans (if_neg (by simp [q, hoff])), (tick_oamAddr_eq s).trans (if_neg (by simp [q, hoff]))⟩
    · have hv : q.v = { q with v := p.v }.renderV := (tick_v s).trans (if_pos hon)
      have haddr : q.oamAddr = if 257 ≤ q.dot ∧ q.dot ≤ 320 then 0 else p.oamAddr := by
        rw [tick_oamAddr_eq, hon, Bool.true_and]
        simp only [decide_eq_true_iff]
        rfl
      refine ⟨haddr, fun hsteps => hv.trans (renderV_steps hsteps), fun hdot => ?_, fun hvertical => ?_,
        fun hsteps hdot hvertical => hv.trans (renderV_other hsteps hdot hvertical)⟩
      · rw [show q.v = copyHorizontal p.t p.v from hv.trans (renderV_horizontal hdot)]
        exact copyHorizontal_fields p.t p.v
      · rw [show q.v = copyVertical p.t p.v from hv.trans (renderV_vertical hvertical)]
        exact copyVertical_fields p.t p.v
  case fields =>
    obtain ⟨hcolumn, hflip, hrow, hfine, hkept⟩ := incCoarseX_fields v
    exact ⟨hcolumn, hflip, hrow, hfine, hkept, incY_fields v⟩

/-! ### The dots of a frame (60_exceptions R601, R602, R603) -/

/-- The dots of a frame that come before this one, when none is skipped (60_exceptions R602). -/
def Ppu.framePosition (p : Ppu) : Nat := p.scanline * 341 + p.dot

/-- With rendering disabled no dot is skipped, so a line ends with its dot 340 (60_exceptions R603). -/
theorem Ppu.lineEnds_off {p : Ppu} (hoff : p.renderingEnabled = false) : p.lineEnds = decide (p.dot = 340) := by
  rw [Ppu.lineEnds, Ppu.skipsDot, hoff, Bool.and_false, Bool.or_false]

/-- With rendering disabled a dot before a frame's last is followed by the next one of the same frame. -/
theorem Ppu.advance_within_frame {p : Ppu} (hcounters : p.countersOk) (hoff : p.renderingEnabled = false)
    (h : p.framePosition + 1 < 341 * 262) :
    p.advance.framePosition = p.framePosition + 1 ∧ p.advance.oddFrame = p.oddFrame := by
  obtain ⟨hline, hdot⟩ := hcounters
  have hends := Ppu.lineEnds_off hoff
  simp only [Ppu.framePosition] at h ⊢
  by_cases hlast : p.dot = 340
  · have hframe : p.scanline ≠ 261 := by omega
    simp only [Ppu.advance, Ppu.frameEnds, hends, hlast, hframe, decide_true, decide_false, Bool.and_false,
      Bool.false_eq_true, if_true, if_false, and_true]
    omega
  · simp only [Ppu.advance, Ppu.frameEnds, hends, hlast, decide_false, Bool.false_and, Bool.false_eq_true, if_false,
      and_true]
    omega

/-- With rendering disabled a frame's last dot is followed by the first one of a frame of the other parity. -/
theorem Ppu.advance_past_frame {p : Ppu} (hcounters : p.countersOk) (hoff : p.renderingEnabled = false)
    (h : p.framePosition + 1 = 341 * 262) : p.advance.framePosition = 0 ∧ p.advance.oddFrame = !p.oddFrame := by
  obtain ⟨hline, hdot⟩ := hcounters
  simp only [Ppu.framePosition] at h ⊢
  have hlast : p.dot = 340 ∧ p.scanline = 261 := by omega
  simp [Ppu.advance, Ppu.frameEnds, Ppu.lineEnds_off hoff, hlast]

/-- Dots with rendering disabled that stay within a frame. -/
theorem ticks_within_frame (n : Nat) {s : State} (hcounters : s.ppu.countersOk) (hoff : s.renderingOff)
    (h : s.ppu.framePosition + n < 341 * 262) :
    (ticks n s).ppu.countersOk ∧ (ticks n s).renderingOff ∧
      (ticks n s).ppu.framePosition = s.ppu.framePosition + n ∧ (ticks n s).ppu.oddFrame = s.ppu.oddFrame := by
  induction n generalizing s with
  | zero => exact ⟨hcounters, hoff, (Nat.add_zero _).symm, rfl⟩
  | succ n ih =>
    have hnext : (tick s).ppu.framePosition = s.ppu.framePosition + 1 ∧ (tick s).ppu.oddFrame = s.ppu.oddFrame :=
      Ppu.advance_within_frame hcounters hoff (by omega)
    obtain ⟨hcounters', hoff', hposition, hparity⟩ :=
      ih (tick_countersOk hcounters) ((tick_renderingEnabled s).trans hoff) (by omega)
    exact ⟨hcounters', hoff', by rw [ticks, hposition]; omega, by rw [ticks, hparity, hnext.2]⟩

theorem ticks_add (m n : Nat) (s : State) : ticks (m + n) s = ticks n (ticks m s) := by
  induction m generalizing s with
  | zero => rw [Nat.zero_add]; rfl
  | succ m ih => rw [Nat.add_right_comm]; exact ih (tick s)

/-- Dots with rendering disabled that end with the first one of the next frame. -/
theorem ticks_past_frame {k : Nat} {s : State} (hcounters : s.ppu.countersOk) (hoff : s.renderingOff)
    (hk : s.ppu.framePosition + (k + 1) = 341 * 262) :
    (ticks (k + 1) s).ppu.countersOk ∧ (ticks (k + 1) s).renderingOff ∧
      (ticks (k + 1) s).ppu.framePosition = 0 ∧ (ticks (k + 1) s).ppu.oddFrame = !s.ppu.oddFrame := by
  obtain ⟨hcounters', hoff', hposition, hparity⟩ := ticks_within_frame k hcounters hoff (by omega)
  obtain ⟨hfirst, hflips⟩ := Ppu.advance_past_frame hcounters' hoff' (by omega)
  rw [ticks_add]
  exact ⟨tick_countersOk hcounters', hoff', hfirst, hflips.trans (by rw [hparity])⟩

/-- In range, the position gives both counters. -/
theorem Ppu.counters_of_framePosition {p q : Ppu} (hp : p.countersOk) (hq : q.countersOk)
    (h : q.framePosition = p.framePosition) : q.scanline = p.scanline ∧ q.dot = p.dot := by
  obtain ⟨-, hdot⟩ := hp
  obtain ⟨-, hdot'⟩ := hq
  simp only [Ppu.framePosition] at h
  omega

/-- Settles O57: the dots that end with the first one of the next frame, and then those to where the frame was. -/
theorem frameIsItsDots : Obligations.FrameIsItsDots := by
  intro s hcounters hoff
  have hbefore : s.ppu.framePosition < 341 * 262 := by
    obtain ⟨hline, hdot⟩ := hcounters
    simp only [Ppu.framePosition]
    omega
  obtain ⟨k, hk⟩ : ∃ k, s.ppu.framePosition + (k + 1) = 341 * 262 := ⟨341 * 262 - 1 - s.ppu.framePosition, by omega⟩
  obtain ⟨hcounters1, hoff1, hposition1, hparity1⟩ := ticks_past_frame hcounters hoff hk
  obtain ⟨hcounters2, -, hposition2, hparity2⟩ := ticks_within_frame s.ppu.framePosition hcounters1 hoff1 (by omega)
  rw [hposition1, Nat.zero_add] at hposition2
  rw [← hk, Nat.add_comm, ticks_add]
  obtain ⟨hline, hdot⟩ := Ppu.counters_of_framePosition hcounters hcounters2 hposition2
  exact ⟨hline, hdot, hparity2.trans hparity1⟩

/-! ### A latched request (60_exceptions R610, R613) -/

/-- A latched NMI request stays latched. -/
def KeepsPending (s t : State) : Prop := s.nmi.pending = true → t.nmi.pending = true

theorem keepsPending_work : WorkKeeps KeepsPending where
  frame := { refl := fun _ => id, trans := fun h h' => h' ∘ h }
  read _ _ _ _ h := by
    obtain ⟨-, -, -, -, -, -, -, -, -, -, hpending⟩ := memRead_frame h
    exact hpending
  write _ _ _ _ _ h := by
    obtain ⟨-, -, -, -, -, -, -, hpending⟩ := memWrite_frame h
    exact hpending
  cpu _ := Keeps.modifyCpu fun _ => id

/-- Settles O14: no bus access drops the request, and no other part of an instruction touches it. -/
theorem noInstructionDropsAPendingNmi : Obligations.NoInstructionDropsAPendingNmi :=
  fun _ _ _ h => exec_keeps keepsPending_work h

/-! ### What dots and reads do to the NMI request (60_exceptions R604, R605, R610)

Neither changes PPUCTRL, so the line follows vbl, and vbl rises only where a `frame_ready` pulse is recorded. -/

/-- The interrupt controller after an edge check that finds the line at this level (60_exceptions R610). -/
def NmiUnit.checked (line : Bool) (n : NmiUnit) : NmiUnit :=
  { linePrev := line, pending := n.pending || (line && !n.linePrev) }

/-- One thing that a sequence of reads, pushes and dots can do to vbl and the interrupt controller: nothing, an edge check at
which vbl has not risen, or the dot that enters vertical blank. -/
inductive NmiMove (s t : State) : Prop
  | none (hctrl : t.ppu.ctrl = s.ppu.ctrl) (hvbl : t.ppu.vbl = s.ppu.vbl) (hnmi : t.nmi = s.nmi)
      (hpulses : t.framePulses = s.framePulses)
  | check (hctrl : t.ppu.ctrl = s.ppu.ctrl) (hvbl : t.ppu.vbl = true → s.ppu.vbl = true)
      (hnmi : t.nmi = s.nmi.checked t.ppu.nmiLine) (hpulses : t.framePulses = s.framePulses)
  | vblank (hctrl : t.ppu.ctrl = s.ppu.ctrl) (hvbl : t.ppu.vbl = true) (hnmi : t.nmi = s.nmi.checked t.ppu.nmiLine)
      (hpulses : t.framePulses ≠ [])

/-- A succession of such moves. -/
abbrev NmiPath : State → State → Prop := Relation.ReflTransGen NmiMove

theorem tick_nmiMove (s : State) : NmiMove s (tick s) := by
  cases hentry : (tick s).ppu.atVblankEntry with
  | true =>
    obtain ⟨hvbl, hpulses⟩ := tick_entry hentry
    exact .vblank rfl hvbl rfl (by rw [hpulses]; exact List.cons_ne_nil _ _)
  | false =>
    refine .check rfl (fun h => ?_) rfl (by rw [tick_framePulses, hentry]; rfl)
    rw [tick_vbl, hentry, Bool.or_false] at h
    exact (Bool.and_eq_true_iff.mp h).1

theorem afterRead_nmiMove (s : State) (a : Word) : NmiMove s (afterRead s a) := by
  unfold afterRead
  split
  case h_1 r _ =>
    cases r with
    | ppustatus => exact .check rfl nofun rfl rfl
    | _ => exact .none rfl rfl rfl rfl
  all_goals exact .none rfl rfl rfl rfl

theorem endCycle_nmiPath (s : State) : NmiPath s (endCycle s) :=
  have hcounted : NmiMove s { s with cycles := s.cycles + 1 } := .none rfl rfl rfl rfl
  (((Relation.ReflTransGen.single hcounted).tail (tick_nmiMove _)).tail (tick_nmiMove _)).tail (tick_nmiMove _)

theorem idleCycles_nmiPath (n : Nat) (s : State) : NmiPath s (idleCycles n s) := by
  induction n generalizing s with
  | zero => exact .refl
  | succ n ih => exact (endCycle_nmiPath s).trans (ih (endCycle s))

theorem nmiPath_readWork : ReadWorkKeeps NmiPath where
  frame := { refl := fun _ => .refl, trans := .trans }
  read a s b t h := by
    obtain ⟨-, -, rfl⟩ := memRead_eq_ok h
    have hlatch : NmiMove (afterRead s a) { afterRead s a with busLatch := readByte s a } := .none rfl rfl rfl rfl
    exact ((Relation.ReflTransGen.single (afterRead_nmiMove s a)).tail hlatch).trans (endCycle_nmiPath _)
  cpu _ := Keeps.modifyCpu fun _ => .single (.none rfl rfl rfl rfl)

theorem push_nmiPath (v : Byte) : Keeps NmiPath (push v) := by
  intro s u t h
  rw [push_apply] at h
  cases h
  have hram : NmiMove s { s with ram := s.ram.write (stackCell s.cpu.s) v, busLatch := v } := .none rfl rfl rfl rfl
  exact ((Relation.ReflTransGen.single hram).trans (endCycle_nmiPath _)).tail (.none rfl rfl rfl rfl)

section
variable {P : State → Prop} {s t : State}

/-- What every move keeps, a succession of moves keeps. -/
theorem NmiPath.keeps (hP : ∀ {s t}, NmiMove s t → P s → P t) (h : NmiPath s t) (hs : P s) : P t := by
  induction h with
  | refl => exact hs
  | tail _ hmove ih => exact hP hmove ih

/-- The NMI is disabled, and no request is latched. -/
def NmiDisabled (s : State) : Prop := s.ppu.ctrl.getLsbD 7 = false ∧ s.nmi.pending = false

/-- With the NMI disabled the line is low (10_state R64). -/
theorem Ppu.nmiLine_disabled {p : Ppu} (h : p.ctrl.getLsbD 7 = false) : p.nmiLine = false := by
  rw [Ppu.nmiLine, h, Bool.and_false]

theorem NmiMove.keepsDisabled (h : NmiMove s t) : NmiDisabled s → NmiDisabled t := by
  rintro ⟨henable, hpending⟩
  cases h with
  | none hctrl _ hnmi _ => exact ⟨by rw [hctrl, henable], by rw [hnmi, hpending]⟩
  | check hctrl _ hnmi _ | vblank hctrl _ hnmi _ =>
    rw [← hctrl] at henable
    exact ⟨henable, by rw [hnmi, Ppu.nmiLine_disabled henable, NmiUnit.checked, hpending]; rfl⟩

/-- As long as no pulse is recorded, the controller has seen the line's level, and no request is latched. -/
def NmiQuiet (s : State) : Prop := s.framePulses = [] → s.nmi.linePrev = s.ppu.nmiLine ∧ s.nmi.pending = false

/-- While vbl does not rise the line does not. -/
theorem Ppu.nmiLine_falls {p q : Ppu} (hctrl : q.ctrl = p.ctrl) (hvbl : q.vbl = true → p.vbl = true) :
    (q.nmiLine && !p.nmiLine) = false := by
  rw [Ppu.nmiLine, Ppu.nmiLine, hctrl]
  cases hq : q.vbl with
  | false => rw [Bool.false_and, Bool.false_and]
  | true => rw [hvbl hq, Bool.and_not_self]

theorem NmiMove.keepsQuiet (h : NmiMove s t) : NmiQuiet s → NmiQuiet t := by
  intro hquiet hnone
  cases h with
  | none hctrl hvbl hnmi hpulses =>
    obtain ⟨hlevel, hpending⟩ := hquiet (hpulses ▸ hnone)
    exact ⟨by rw [hnmi, hlevel, Ppu.nmiLine, Ppu.nmiLine, hctrl, hvbl], by rw [hnmi, hpending]⟩
  | check hctrl hvbl hnmi hpulses =>
    obtain ⟨hlevel, hpending⟩ := hquiet (hpulses ▸ hnone)
    rw [hnmi, NmiUnit.checked, hlevel, hpending, Ppu.nmiLine_falls hctrl hvbl]
    exact ⟨rfl, rfl⟩
  | vblank _ _ _ hpulses => exact absurd hnone hpulses

/-- With the NMI enabled, the line is low and has been seen low as long as no pulse is recorded, and the first pulse latches
a request. -/
def NmiRaises (s : State) : Prop :=
  s.ppu.ctrl.getLsbD 7 = true ∧ (s.framePulses = [] → s.ppu.vbl = false ∧ s.nmi.linePrev = false) ∧
    (s.framePulses ≠ [] → s.nmi.pending = true)

theorem NmiMove.keepsRaises (h : NmiMove s t) : NmiRaises s → NmiRaises t := by
  rintro ⟨henable, hlow, hlatched⟩
  cases h with
  | none hctrl hvbl hnmi hpulses =>
    rw [NmiRaises, hctrl, hvbl, hnmi, hpulses]
    exact ⟨henable, hlow, hlatched⟩
  | check hctrl hvbl hnmi hpulses =>
    rw [NmiRaises, hctrl, hnmi, hpulses]
    refine ⟨henable, fun hnone => ?_, fun hsome => by rw [NmiUnit.checked, hlatched hsome, Bool.true_or]⟩
    have hvblLow : t.ppu.vbl = false := Bool.eq_false_iff.mpr fun h => by simpa [(hlow hnone).1] using hvbl h
    exact ⟨hvblLow, by rw [NmiUnit.checked, Ppu.nmiLine, hvblLow, Bool.false_and]⟩
  | vblank hctrl hvbl hnmi hpulses =>
    have hline : t.ppu.nmiLine = true := by rw [Ppu.nmiLine, hvbl, hctrl, henable, Bool.and_true]
    refine ⟨by rw [hctrl, henable], fun hnone => absurd hnone hpulses, fun _ => ?_⟩
    rw [hnmi, hline, NmiUnit.checked]
    by_cases hnone : s.framePulses = []
    · rw [(hlow hnone).2, Bool.not_false, Bool.and_true, Bool.or_true]
    · rw [hlatched hnone, Bool.true_or]

end

/-! ### A requested reset (60_exceptions R680, 70_reset_and_hazards R700) -/

/-- With rendering disabled no dot draws the renderer's event bits (60_exceptions R608). -/
theorem tick_draws_off {s : State} (hoff : s.renderingOff) : (tick s).draws = s.draws := by
  have hdraws : (tick s).ppu.drawsFlags = false := by
    rw [Ppu.drawsFlags, tick_renderingEnabled, show s.ppu.renderingEnabled = false from hoff, Bool.false_and]
  exact if_neg (Bool.eq_false_iff.mp hdraws)

theorem endCycle_draws_off {s : State} (hoff : s.renderingOff) : (endCycle s).draws = s.draws := by
  have hoff1 := (tick_renderingEnabled { s with cycles := s.cycles + 1 }).trans hoff
  have hoff2 := (tick_renderingEnabled _).trans hoff1
  exact (tick_draws_off hoff2).trans ((tick_draws_off hoff1).trans (tick_draws_off hoff))

theorem idleCycles_draws_off (n : Nat) {s : State} (hoff : s.renderingOff) : (idleCycles n s).draws = s.draws := by
  induction n generalizing s with
  | zero => rfl
  | succ n ih => exact (ih ((endCycle_renderingEnabled s).trans hoff)).trans (endCycle_draws_off hoff)

theorem requestReset_eq {s : State} (h : s.fault = none) :
    s.requestReset = { s with inputs := { s.inputs with resetReq := true } } := by
  rw [State.requestReset, h]

/-- The registers a reset sets disable the NMI and rendering, and clear the request. -/
theorem resetRegisters_quiet (d : PpuDraw) (s : State) :
    NmiDisabled (resetRegisters d s) ∧ (resetRegisters d s).renderingOff :=
  ⟨⟨BitVec.getLsbD_zero, rfl⟩, Ppu.renderingEnabled_congr (q := State.reset.ppu) rfl⟩

/-- What a taken reset leaves (70_reset_and_hazards R700): with the NMI disabled none of its dots latches a request, and with
rendering disabled none draws. -/
theorem takeReset_leaves (s : State) : ∃ t, takeReset s = .ok () t ∧ t.inputs = { s.inputs with resetReq := false } ∧
    t.cycles = 7 ∧ t.nmi.pending = false ∧ t.ram = s.ram ∧ t.draws = s.draws + 1 := by
  obtain ⟨hdisabled, hoff⟩ := resetRegisters_quiet (resetDraw s.draws) { s with draws := s.draws + 1 }
  have hpending := ((idleCycles_nmiPath 7 _).keeps NmiMove.keepsDisabled hdisabled).2
  have hdraws := idleCycles_draws_off 7 hoff
  exact ⟨_, resetSequence_apply _ _, by simp, by simp, hpending, by simp, hdraws⟩

/-- Settles O8: the request makes the next step the reset sequence, which sets its registers before its cycles. -/
theorem stepTakesARequestedReset : Obligations.StepTakesARequestedReset := by
  intro s hfault
  obtain ⟨t, hreset, hleaves⟩ :=
    takeReset_leaves { s with inputs := { s.inputs with resetReq := true }, framePulses := [] }
  have hstep := step_reset (s := { s with inputs := { s.inputs with resetReq := true } }) hfault rfl
  exact ⟨t, by rw [requestReset_eq hfault]; exact hstep.trans (outcome_ok hreset), hleaves⟩

/-! ### The interrupt entries (60_exceptions R612 to R615) -/

/-- The two dummy reads of an entry are of the same address: a read leaves PC alone (60_exceptions R614). -/
theorem enter_eq_busReads (vec : Word) (s : State) :
    enter vec s = (busReads [s.cpu.pc, s.cpu.pc] >>= fun _ => takeException false vec) s := by
  simp only [enter, dummyPc_apply, busReads_cons, busReads_nil, bind_eq]
  cases hread : memRead s.cpu.pc s with
  | error r t => rfl
  | ok b u =>
    obtain ⟨-, hcpu, -⟩ := memRead_frame hread
    simp only [hcpu]
    cases memRead s.cpu.pc u <;> rfl

section
variable {s t : State} {b : Bool} {vec : Word}

/-- What an entry that completes is made of. -/
theorem enter_eq_ok (h : enter vec s = .ok () t) :
    ∃ u, takeException false vec u = .ok () t ∧ u.cpu = s.cpu := by
  rw [enter_eq_busReads] at h
  obtain ⟨_, u, hreads, htake⟩ := bind_eq_ok h
  obtain ⟨hcpu, -⟩ := busReads_frame hreads
  exact ⟨u, htake, hcpu⟩

/-- What every read, every push and every change of the CPU registers keeps, an entry keeps. -/
theorem enter_keeps_of_push {R : State → State → Prop} (hR : ReadWorkKeeps R) (hpush : ∀ v, Keeps R (push v))
    (vec : Word) : Keeps R (enter vec) :=
  have F := hR.frame
  have dummies := Keeps.dummyPc hR.toReadKeeps
  Keeps.bind F dummies fun _ => Keeps.bind F dummies fun _ => Keeps.bind F (Keeps.getCpu F) fun _ =>
    Keeps.bind F (hpush _) fun _ => Keeps.bind F (hpush _) fun _ => Keeps.bind F (hpush _) fun _ =>
      Keeps.bind F (hR.cpu _) fun _ => Keeps.jumpVector hR vec

/-- A vector's two reads change PC alone of the CPU registers and keep RAM, and the edge checks of the last one have seen the
line's level (60_exceptions R610, R615). -/
theorem jumpVector_eq_ok (h : jumpVector vec s = .ok () t) :
    (∃ pc, t.cpu = { s.cpu with pc := pc }) ∧ t.ram = s.ram ∧ t.nmi.linePrev = t.ppu.nmiLine := by
  obtain ⟨lo, u, hread1, h⟩ := bind_eq_ok h
  obtain ⟨hi, v, hread2, hset⟩ := bind_eq_ok h
  obtain ⟨-, -, hlast⟩ := memRead_eq_ok hread2
  have hlevel : v.nmi.linePrev = v.ppu.nmiLine := by rw [hlast]; rfl
  obtain ⟨-, hcpu1, -, hram1, -⟩ := memRead_frame hread1
  obtain ⟨-, hcpu2, -, hram2, -⟩ := memRead_frame hread2
  cases hset
  exact ⟨⟨cat16 hi lo, by rw [hcpu2, hcpu1]⟩, hram2.trans hram1, hlevel⟩

/-- An entry through a vector in PRG ROM completes where PC is fault-free, in seven cycles (60_exceptions R614). -/
theorem enter_took (hlo : decodeAddr vec = .prg) (hhi : decodeAddr (vec + 1#16) = .prg) (h : faultFree s s.cpu.pc) :
    ∃ t, enter vec s = .ok () t ∧ tookException false vec s t ∧ t.cycles = s.cycles + 7 ∧
      t.nmi.linePrev = t.ppu.nmiLine := by
  obtain ⟨u, hreads⟩ := busReads_free (as := [s.cpu.pc, s.cpu.pc]) (s := s) (by simpa using h)
  obtain ⟨hcpu, hcycles, hram, hboard, -⟩ := busReads_frame hreads
  obtain ⟨t, htake, htook, hcycles'⟩ := takeException_took hlo hhi false u
  have hvec : readByte u vec = readByte s vec ∧ readByte u (vec + 1#16) = readByte s (vec + 1#16) :=
    ⟨readByte_plain (by rw [holdsCode, hlo]) hram hboard, readByte_plain (by rw [holdsCode, hhi]) hram hboard⟩
  rw [tookException, hcpu, hram, hvec.1, hvec.2] at htook
  obtain ⟨-, -, hlevel⟩ := jumpVector_eq_ok ((takeException_eq_jumpVector false vec u).symm.trans htake)
  refine ⟨t, (enter_eq_busReads vec s).trans ((bind_ok hreads).trans htake), htook, ?_, hlevel⟩
  rw [hcycles', hcycles, List.length_cons, List.length_singleton]

/-- A pending NMI is taken whatever I holds, its request cleared before the entry (60_exceptions R613). -/
theorem interruptDue_nmi (hpending : s.nmi.pending = true)
    (h : enter nmiVector { s with nmi := { s.nmi with pending := false } } = .ok () t) : interruptDue s = .ok true t := by
  rw [interruptDue, if_pos hpending]
  exact (bind_ok (m := clearNmi) rfl).trans (bind_ok h)

/-- Without a pending NMI, IRQ is taken when its input is low and I is 0 (60_exceptions R612, R613). -/
theorem interruptDue_irq (hpending : s.nmi.pending = false) (hirq : s.inputs.irqN = false) (hi : s.cpu.p.i = false)
    (h : enter irqVector s = .ok () t) : interruptDue s = .ok true t := by
  rw [interruptDue, if_neg (by simp [hpending]), if_pos (by simp [hirq, hi])]
  exact bind_ok h

theorem runBoundary_taken (h : interruptDue s = .ok true t) : runBoundary s = .next t := by
  rw [runBoundary, h]

end

/-- Settles O44: an entry is two reads and the exception sequence, and its reads, pushes and dots move the NMI request only
where the line rises. -/
theorem interruptsAreTakenAtTheBoundary : Obligations.InterruptsAreTakenAtTheBoundary := by
  intro s hfault hreset hfree
  have hstep := step_boundary hfault hreset
  refine ⟨fun hpending => ?nmi, fun hpending hirq hi => ?irq⟩
  case nmi =>
    obtain ⟨t, hrun, htook, hcycles, hlevel⟩ := enter_took (vec := nmiVector)
      (s := { s with framePulses := [], nmi := { s.nmi with pending := false } }) rfl rfl hfree
    have hpath := enter_keeps_of_push nmiPath_readWork push_nmiPath nmiVector _ _ _ hrun
    refine ⟨t, hstep.trans (runBoundary_taken (interruptDue_nmi hpending hrun)), htook, hcycles, fun hoff => ?_,
      fun hseen hnone => ?_, fun hprev hvbl hon hsome => ?_⟩
    · obtain ⟨hoff', hclear⟩ := hpath.keeps NmiMove.keepsDisabled ⟨hoff, rfl⟩
      rw [Ppu.nmiLine_disabled hoff'] at hlevel
      show NmiUnit.mk t.nmi.linePrev t.nmi.pending = _
      rw [hlevel, hclear]
    · exact (hpath.keeps NmiMove.keepsQuiet (fun _ => ⟨hseen, rfl⟩) hnone).2
    · obtain ⟨-, -, hlatched⟩ := hpath.keeps NmiMove.keepsRaises ⟨hon, fun _ => ⟨hvbl, hprev⟩, (absurd rfl ·)⟩
      exact hlatched hsome
  case irq =>
    obtain ⟨t, hrun, htook, hcycles, -⟩ :=
      enter_took (vec := irqVector) (s := { s with framePulses := [] }) rfl rfl hfree
    exact ⟨t, hstep.trans (runBoundary_taken (interruptDue_irq hpending hirq hi hrun)), htook, hcycles⟩

/-! ### The returns (60_exceptions R617, 44_control R372, R373, R383) -/

theorem stackCell_ne {p q : Byte} (h : p ≠ q) : stackCell p ≠ stackCell q := by
  unfold stackCell
  bv_omega

/-- The image of P holds its six flags (10_state R46). -/
theorem pulledFlags_pImage (p : Flags) (b : Bool) : pulledFlags (pImage p b) = p := by
  simp only [pulledFlags, pImage, BitVec.getLsbD_append]
  simp

theorem cat16_page_lowByte (a : Word) : cat16 (page a) (lowByte a) = a := by
  have hlow : (lowByte a).toNat = a.toNat % 256 := by simp [lowByte]
  refine BitVec.eq_of_toNat_eq ?_
  rw [cat16_toNat, page_toNat, hlow]
  omega

section
variable {s t u v : State}

/-- What the exception sequence leaves on the stack (60_exceptions R614). -/
theorem takeException_stack {b : Bool} {vec : Word} (h : takeException b vec s = .ok () t) :
    t.cpu.s = s.cpu.s - 3#8 ∧ t.ram.read (stackCell s.cpu.s) = page s.cpu.pc ∧
    t.ram.read (stackCell (s.cpu.s - 1#8)) = lowByte s.cpu.pc ∧
    t.ram.read (stackCell (s.cpu.s - 2#8)) = pImage s.cpu.p b := by
  rw [takeException_eq_jumpVector] at h
  obtain ⟨⟨pc, hcpu⟩, hram, -⟩ := jumpVector_eq_ok h
  have h01 : stackCell s.cpu.s ≠ stackCell (s.cpu.s - 1#8) := stackCell_ne (by bv_omega)
  have h02 : stackCell s.cpu.s ≠ stackCell (s.cpu.s - 2#8) := stackCell_ne (by bv_omega)
  have h12 : stackCell (s.cpu.s - 1#8) ≠ stackCell (s.cpu.s - 2#8) := stackCell_ne (by bv_omega)
  simp only [hcpu, hram, stackWork_cpu, stackWork_ram, true_and]
  exact ⟨by rw [Memory.read_write_other _ _ h02, Memory.read_write_other _ _ h01, Memory.read_write_same],
    by rw [Memory.read_write_other _ _ h12, Memory.read_write_same], Memory.read_write_same _ _ _⟩

/-- RTI takes the flags and PC from the three cells above S (44_control R383). -/
theorem exec_rti_eq (h : exec .rti u = .next v) : v.cpu.s = u.cpu.s + 3#8 ∧
    v.cpu.p = pulledFlags (u.ram.read (stackCell (u.cpu.s + 1#8))) ∧
    v.cpu.pc = cat16 (u.ram.read (stackCell (u.cpu.s + 3#8))) (u.ram.read (stackCell (u.cpu.s + 2#8))) := by
  obtain ⟨_, u1, hdummy, h⟩ := bind_eq_ok (outcome_eq_next h)
  rw [bind_ok (dummyStack_apply u1), returnFromException_apply] at h
  obtain ⟨hcpu, hcells⟩ := Keeps.dummyPc keepsCpuAndCells_read u _ u1 hdummy
  have hram : ∀ i, u1.ram.read i = u.ram.read i := fun i => hcells (.ram i)
  cases h
  simp [hcpu, hram]

/-- RTI undoes the exception sequence (60_exceptions R617). -/
theorem rti_undoes {b : Bool} {vec : Word} (htake : takeException b vec s = .ok () t) (hs : u.cpu.s = t.cpu.s)
    (hcells : ∀ k ∈ [s.cpu.s, s.cpu.s - 1#8, s.cpu.s - 2#8], u.ram.read (stackCell k) = t.ram.read (stackCell k))
    (h : exec .rti u = .next v) : v.cpu.pc = s.cpu.pc ∧ v.cpu.p = s.cpu.p ∧ v.cpu.s = s.cpu.s := by
  obtain ⟨hts, hpage, hlow, himage⟩ := takeException_stack htake
  obtain ⟨hvs, hp, hpc⟩ := exec_rti_eq h
  have hcell1 : u.cpu.s + 1#8 = s.cpu.s - 2#8 := by bv_omega
  have hcell2 : u.cpu.s + 2#8 = s.cpu.s - 1#8 := by bv_omega
  have hcell3 : u.cpu.s + 3#8 = s.cpu.s := by bv_omega
  rw [hcell1, hcells _ (by simp), himage, pulledFlags_pImage] at hp
  rw [hcell3, hcell2, hcells _ (by simp), hcells _ (by simp), hpage, hlow, cat16_page_lowByte] at hpc
  exact ⟨hpc, hp, hvs.trans hcell3⟩

/-- What JSR leaves on the stack (44_control R372). -/
theorem exec_jsr_stack {lo8 hi8 : Byte} (h : exec (.jsr lo8 hi8) s = .next t) :
    t.cpu.s = s.cpu.s - 2#8 ∧ t.ram.read (stackCell s.cpu.s) = page s.cpu.pc ∧
    t.ram.read (stackCell (s.cpu.s - 1#8)) = lowByte s.cpu.pc := by
  have hrun := outcome_eq_next h
  rw [jsrPushes_bind] at hrun
  obtain ⟨hi, u, hread, hset⟩ := bind_eq_ok hrun
  obtain ⟨-, hcpu, -, hram, -⟩ := memRead_frame hread
  cases hset
  have h01 : stackCell s.cpu.s ≠ stackCell (s.cpu.s - 1#8) := stackCell_ne (by bv_omega)
  simp only [hcpu, hram, stackWork_cpu, stackWork_ram, true_and]
  exact ⟨by rw [Memory.read_write_other _ _ h01, Memory.read_write_same], Memory.read_write_same _ _ _⟩

/-- RTS goes past the address in the two cells above S (44_control R373). -/
theorem exec_rts_eq (h : exec .rts u = .next v) : v.cpu.s = u.cpu.s + 2#8 ∧
    v.cpu.pc = cat16 (u.ram.read (stackCell (u.cpu.s + 2#8))) (u.ram.read (stackCell (u.cpu.s + 1#8))) + 1#16 := by
  obtain ⟨_, u1, hdummy, h⟩ := bind_eq_ok (outcome_eq_next h)
  rw [rtsPulls_bind] at h
  obtain ⟨_, u2, hread, hset⟩ := bind_eq_ok h
  obtain ⟨hcpu, hcells⟩ := Keeps.dummyPc keepsCpuAndCells_read u _ u1 hdummy
  obtain ⟨hcpu2, -⟩ := Keeps.dummy (keepsCpuAndCells_read.read _) _ _ _ hread
  have hram : ∀ i, u1.ram.read i = u.ram.read i := fun i => hcells (.ram i)
  cases hset
  simp [hcpu2, hcpu, hram]

/-- RTS undoes JSR, past the address JSR pushed. -/
theorem rts_undoes {lo8 hi8 : Byte} (hjsr : exec (.jsr lo8 hi8) s = .next t) (hs : u.cpu.s = t.cpu.s)
    (hcells : ∀ k ∈ [s.cpu.s, s.cpu.s - 1#8], u.ram.read (stackCell k) = t.ram.read (stackCell k))
    (h : exec .rts u = .next v) : v.cpu.pc = s.cpu.pc + 1#16 ∧ v.cpu.s = s.cpu.s := by
  obtain ⟨hts, hpage, hlow⟩ := exec_jsr_stack hjsr
  obtain ⟨hvs, hpc⟩ := exec_rts_eq h
  have hcell1 : u.cpu.s + 1#8 = s.cpu.s - 1#8 := by bv_omega
  have hcell2 : u.cpu.s + 2#8 = s.cpu.s := by bv_omega
  rw [hcell2, hcell1, hcells _ (by simp), hcells _ (by simp), hpage, hlow, cat16_page_lowByte] at hpc
  exact ⟨hpc, hvs.trans hcell2⟩

end

/-- Settles O45: the cells above S are the ones that the entry pushed to, in reverse. An interrupt entry and BRK share their
pushes. -/
theorem returnsUndoTheirEntries : Obligations.ReturnsUndoTheirEntries := by
  intro s t u v hs
  refine ⟨fun vec henter hcells hrti => ?_, fun padding hbrk hcells hrti => ?_, fun lo8 hi8 hjsr hcells hrts => ?_⟩
  · obtain ⟨s1, htake, hcpu⟩ := enter_eq_ok henter
    rw [← hcpu] at hcells ⊢
    exact rti_undoes htake hs hcells hrti
  · exact rti_undoes (outcome_eq_next hbrk) hs hcells hrti
  · exact rts_undoes hjsr hs hcells hrts

end Sys2Proof.Machine
end

section
/-! SUPPORT. The proof of the reset sequence's statement (70_reset_and_hazards R700): with rendering disabled its dots only
advance the dot counter of scanline 0, and with the NMI disabled they leave the interrupt controller at rest. -/

namespace Sys2Proof.Machine

/-! ### Dots of a blanked visible line (60_exceptions R601 to R608) -/

section
variable {p : Ppu}

/-- With rendering disabled a dot before a line's last is followed by the next one of the same line. -/
theorem Ppu.advance_within_line (hoff : p.renderingEnabled = false) (hdot : p.dot ≠ 340) :
    p.advance = { p with dot := p.dot + 1 } := by
  simp [Ppu.advance, Ppu.frameEnds, Ppu.lineEnds_off hoff, hdot]

/-- The status bits are set and cleared past the visible lines only. -/
theorem Ppu.lineEvents_visible (hline : p.scanline ≤ 239) : p.lineEvents = p := by
  have hentry : p.scanline ≠ 241 := by omega
  have hpre : p.scanline ≠ 261 := by omega
  simp [Ppu.lineEvents, Ppu.atVblankEntry, Ppu.atPreRenderStart, hentry, hpre]

theorem Ppu.renderEvents_off (hoff : p.renderingEnabled = false) : p.renderEvents = p := by
  simp [Ppu.renderEvents, Ppu.inRender, hoff]

theorem Ppu.takeFlags_off (hit ovf : Bool) (hoff : p.renderingEnabled = false) : p.takeFlags hit ovf = p := by
  simp [Ppu.takeFlags, Ppu.drawsFlags, hoff]

end

section
variable {s : State}

/-- With rendering disabled a dot of a visible line before the line's last has no event. -/
theorem tick_ppu_off (hoff : s.renderingOff) (hline : s.ppu.scanline ≤ 239) (hdot : s.ppu.dot ≠ 340) :
    (tick s).ppu = { s.ppu with dot := s.ppu.dot + 1 } := by
  have hadvance := Ppu.advance_within_line hoff hdot
  have hoff' : s.ppu.advance.renderingEnabled = false := hoff
  have hline' : s.ppu.advance.scanline ≤ 239 := by rw [hadvance]; exact hline
  calc (tick s).ppu
      = s.ppu.advance.lineEvents.renderEvents.takeFlags (Config.renderHit s.draws) (Config.renderOverflow s.draws) := rfl
    _ = s.ppu.advance := by
      rw [Ppu.lineEvents_visible hline', Ppu.renderEvents_off hoff', Ppu.takeFlags_off _ _ hoff']
    _ = { s.ppu with dot := s.ppu.dot + 1 } := hadvance

theorem ticks_ppu_off (n : Nat) (hoff : s.renderingOff) (hline : s.ppu.scanline ≤ 239) (hdot : s.ppu.dot + n ≤ 340) :
    (ticks n s).ppu = { s.ppu with dot := s.ppu.dot + n } := by
  induction n generalizing s with
  | zero => rfl
  | succ n ih =>
    have hnext := tick_ppu_off hoff hline (by omega)
    rw [ticks, ih ((tick_renderingEnabled s).trans hoff) (by rwa [hnext]) (by simp only [hnext]; omega), hnext]
    simp only [Nat.add_assoc, Nat.add_comm 1 n]

/-- A cycle is three dots (00_scope R15). -/
theorem endCycle_ppu_off (hoff : s.renderingOff) (hline : s.ppu.scanline ≤ 239) (hdot : s.ppu.dot + 3 ≤ 340) :
    (endCycle s).ppu = { s.ppu with dot := s.ppu.dot + 3 } :=
  ticks_ppu_off (s := { s with cycles := s.cycles + 1 }) 3 hoff hline hdot

theorem idleCycles_ppu_off (n : Nat) (hoff : s.renderingOff) (hline : s.ppu.scanline ≤ 239)
    (hdot : s.ppu.dot + 3 * n ≤ 340) : (idleCycles n s).ppu = { s.ppu with dot := s.ppu.dot + 3 * n } := by
  induction n generalizing s with
  | zero => rfl
  | succ n ih =>
    have hnext := endCycle_ppu_off hoff hline (by omega)
    rw [idleCycles, ih ((endCycle_renderingEnabled s).trans hoff) (by rwa [hnext]) (by simp only [hnext]; omega), hnext]
    simp only [Nat.add_assoc, Nat.mul_succ, Nat.add_comm 3]

/-- With the NMI disabled a cycle's edge checks see the line low and latch nothing (60_exceptions R610). -/
theorem idleCycles_nmi_disabled (n : Nat) (h : NmiDisabled s) :
    (idleCycles (n + 1) s).nmi = { linePrev := false, pending := false } := by
  obtain ⟨henable, hpending⟩ := (idleCycles_nmiPath (n + 1) s).keeps NmiMove.keepsDisabled h
  have hseen : (idleCycles (n + 1) s).nmi.linePrev = (idleCycles (n + 1) s).ppu.nmiLine := by
    rw [← endCycle_idleCycles]
    exact nmiCheck_linePrev _
  rw [Ppu.nmiLine_disabled henable] at hseen
  calc (idleCycles (n + 1) s).nmi
      = { linePrev := (idleCycles (n + 1) s).nmi.linePrev, pending := (idleCycles (n + 1) s).nmi.pending } := rfl
    _ = { linePrev := false, pending := false } := by rw [hseen, hpending]

end

/-! ### The reset sequence (70_reset_and_hazards R700) -/

/-- The PPU after the seven cycles of a reset: as its registers were set, at dot 21 of scanline 0. -/
theorem idleCycles_resetRegisters_ppu (d : PpuDraw) (s : State) :
    (idleCycles 7 (resetRegisters d s)).ppu = { (resetRegisters d s).ppu with dot := 21 } :=
  idleCycles_ppu_off 7 (resetRegisters_quiet d s).2 (Nat.zero_le 239) (by decide : 0 + 3 * 7 ≤ 340)

/-- Settles O7: the sequence is the registers it sets, seven quiet cycles and the vector; a request looks at the field
`fault` first. -/
theorem resetSequenceLeavesItsValues : Obligations.ResetSequenceLeavesItsValues := by
  intro d s
  refine ⟨fun hfault => ?_, _, resetSequence_apply d s, rfl, ?_⟩
  · obtain ⟨r, hr⟩ := Option.ne_none_iff_exists'.mp hfault
    exact requestReset_faulted hr
  · have hnmi := idleCycles_nmi_disabled 6 (resetRegisters_quiet d s).1
    have hdma := idleCycles_field State.dmaRequest endCycle_dmaRequest 7 (resetRegisters d s)
    have hpad := idleCycles_field State.pad endCycle_pad 7 (resetRegisters d s)
    have hfault := idleCycles_field State.fault endCycle_fault 7 (resetRegisters d s)
    exact ⟨by simp, hnmi, hdma, hpad, idleCycles_resetRegisters_ppu d s, by simp, rfl, hfault, by simp⟩

end Sys2Proof.Machine
end
